-- ==== Sys2Proof/Word.lean ====
section
/-! DEFINITION. The word types: a byte, and the 64-bit word that every register, parameter register and
scalar register holds (spec/00 R11, spec/06 R179, R182). -/
namespace Sys2Proof

/-- One byte of a memory, of a queue element or of a flit. -/
abbrev Byte := BitVec 8

/-- A 64-bit word: a register, a command word, a parameter or scalar register. -/
abbrev Word := BitVec 64

end Sys2Proof
end

