-- ==== Sys2Proof/Machine/Bits.lean ====
section
/-! DEFINITION. Bit fields, two's complement and byte order (spec/00 R10, R11: bit 0 is the least significant
bit, multi-byte quantities are little-endian). -/
namespace Sys2Proof.Machine

/-- Bits [hi:lo] of a natural number. -/
def bitsOf (n hi lo : Nat) : Nat := n / 2 ^ lo % 2 ^ (hi + 1 - lo)

/-- Bits [hi:lo] of a word (R10). -/
def fld (w : Word) (hi lo : Nat) : Nat := bitsOf w.toNat hi lo

/-- Bit i of a word. -/
def bitAt (w : Word) (i : Nat) : Bool := fld w i i == 1

/-- The word w with bits [hi:lo] replaced by v. -/
def setFld (w : Word) (hi lo v : Nat) : Word :=
  BitVec.ofNat 64 (w.toNat - fld w hi lo * 2 ^ lo + v % 2 ^ (hi + 1 - lo) * 2 ^ lo)

/-- The word w with bit i set to b. -/
def setBit (w : Word) (i : Nat) (b : Bool) : Word := setFld w i i b.toNat

/-- Bit i of a natural number. -/
def natBit (n i : Nat) : Bool := n / 2 ^ i % 2 == 1

/-- The low w bits of n, read as two's complement. -/
def toSigned (w n : Nat) : Int :=
  let m := n % 2 ^ w
  if m < 2 ^ (w - 1) then (m : Int) else (m : Int) - 2 ^ w

/-- The w-bit two's complement code of i, wrapped modulo 2^w. -/
def ofSigned (w : Nat) (i : Int) : Nat := (i % (2 ^ w : Int)).toNat

/-- The w-bit codes of the most negative and most positive value. -/
def minSigned (w : Nat) : Int := -(2 ^ (w - 1) : Int)
def maxSigned (w : Nat) : Int := 2 ^ (w - 1) - 1

/-- i clamped to the w-bit two's complement range, and whether the clamp acted. -/
def clampSigned (w : Nat) (i : Int) : Int × Bool :=
  if i < minSigned w then (minSigned w, true)
  else if i > maxSigned w then (maxSigned w, true)
  else (i, false)

/-- Sign extension of the low w bits to a 64-bit word. -/
def sext64 (w n : Nat) : Word := BitVec.ofInt 64 (toSigned w n)

/-- The k low bytes of n, little-endian (R11). -/
def bytesLE : Nat → Nat → List Byte
  | _, 0 => []
  | n, k + 1 => BitVec.ofNat 8 n :: bytesLE (n / 256) k

/-- The number that little-endian bytes spell (R11). -/
def natLE : List Byte → Nat
  | [] => 0
  | b :: bs => b.toNat + 256 * natLE bs

/-- The number that big-endian bytes spell. -/
def natBE (bs : List Byte) : Nat := bs.foldl (fun a b => a * 256 + b.toNat) 0

/-- The k low bytes of n, most significant first. -/
def bytesBE (n k : Nat) : List Byte := (bytesLE n k).reverse

/-- Number of one bits among the low k bits. -/
def popCount (n : Nat) : Nat → Nat
  | 0 => 0
  | k + 1 => (if natBit n k then 1 else 0) + popCount n k

/-- Exclusive or, and, or of natural numbers as bit strings. -/
def nxor (a b : Nat) : Nat := a ^^^ b
def nand (a b : Nat) : Nat := a &&& b
def nor (a b : Nat) : Nat := a ||| b

/-- n rounded up to a multiple of m. -/
def roundUp (n m : Nat) : Nat := (n + m - 1) / m * m

/-- ceil(n / m). -/
def ceilDiv (n m : Nat) : Nat := (n + m - 1) / m

/-- The list padded with z, or cut, to k entries. -/
def padTo {α : Type} (z : α) (k : Nat) (l : List α) : List α :=
  l.take k ++ List.replicate (k - l.length) z

/-- k consecutive entries of the list from position i. -/
def slice {α : Type} (l : List α) (i k : Nat) : List α := (l.drop i).take k

/-- The list cut into pieces of k entries; fuel bounds the number of pieces. -/
def chunks {α : Type} (k : Nat) : Nat → List α → List (List α)
  | 0, _ => []
  | f + 1, l => if l.isEmpty then [] else l.take k :: chunks k f (l.drop k)

end Sys2Proof.Machine
end

