-- ==== Sys2Proof/Machine/Float.lean ====
section
/-! DEFINITION. Exact dyadic arithmetic and the floating-point types (spec/02 R53, R67-R71, spec/03 R93). A finite
value is a mantissa times a power of two; every rounding is one call of roundFP. -/
namespace Sys2Proof.Machine

/-- An exact value m * 2^e. -/
structure Dy where
  m : Int
  e : Int
deriving DecidableEq, Repr

/-- Two to a natural power given as an integer exponent; a negative exponent gives one. -/
def pow2 (e : Int) : Nat := 2 ^ e.toNat

/-- The mantissa of d at the exponent e, which is not above d's own. -/
def Dy.at (d : Dy) (e : Int) : Int := d.m * pow2 (d.e - e)

def Dy.zero : Dy := ⟨0, 0⟩
def Dy.ofInt (i : Int) : Dy := ⟨i, 0⟩
def Dy.neg (a : Dy) : Dy := ⟨-a.m, a.e⟩
def Dy.abs (a : Dy) : Dy := ⟨a.m.natAbs, a.e⟩
def Dy.mul (a b : Dy) : Dy := ⟨a.m * b.m, a.e + b.e⟩
def Dy.add (a b : Dy) : Dy := let e := min a.e b.e; ⟨a.at e + b.at e, e⟩
def Dy.sub (a b : Dy) : Dy := a.add b.neg
def Dy.scale (a : Dy) (k : Int) : Dy := ⟨a.m, a.e + k⟩
def Dy.lt (a b : Dy) : Bool := let e := min a.e b.e; a.at e < b.at e
def Dy.le (a b : Dy) : Bool := !(b.lt a)
def Dy.isZero (a : Dy) : Bool := a.m == 0

/-- floor(d). -/
def Dy.floor (d : Dy) : Int := if d.e < 0 then d.m / (pow2 (-d.e) : Int) else d.m * pow2 d.e

/-- Number of bits of n: the least k with n < 2^k. -/
def bitLen (n : Nat) : Nat := if n = 0 then 0 else Nat.log2 n + 1

/-- The rounding modes of CVT (R104); every other operation uses rne. -/
inductive Rm where
  | rne | rz | rd | ru
deriving DecidableEq, Repr

/-- n / d (n the magnitude, of the given sign) rounded to an integer magnitude. -/
def roundDiv (rm : Rm) (neg : Bool) (n d : Nat) : Nat :=
  let q := n / d
  let r := n % d
  match rm with
  | .rne => if 2 * r > d || (2 * r == d && q % 2 == 1) then q + 1 else q
  | .rz => q
  | .rd => if neg && r != 0 then q + 1 else q
  | .ru => if !neg && r != 0 then q + 1 else q

/-- d rounded to an integer (R63, R71, R93). -/
def Dy.round (rm : Rm) (d : Dy) : Int :=
  if d.e ≥ 0 then d.m * pow2 d.e
  else
    let q := roundDiv rm (d.m < 0) d.m.natAbs (pow2 (-d.e))
    if d.m < 0 then -(q : Int) else q

/-- A binary interchange format: exponent bits and fraction bits. -/
structure FFmt where
  eb : Nat
  fb : Nat
deriving DecidableEq, Repr

def FFmt.fp32 : FFmt := ⟨8, 23⟩
def FFmt.fp16 : FFmt := ⟨5, 10⟩
def FFmt.bf16 : FFmt := ⟨8, 7⟩
def FFmt.fp64 : FFmt := ⟨11, 52⟩

def FFmt.width (f : FFmt) : Nat := 1 + f.eb + f.fb
def FFmt.signBit (f : FFmt) : Nat := 2 ^ (f.eb + f.fb)
/-- The exponent of one unit of the subnormal fraction. -/
def FFmt.qmin (f : FFmt) : Int := 2 - (2 ^ (f.eb - 1) : Int) - f.fb
/-- The code of plus infinity. -/
def FFmt.infCode (f : FFmt) : Nat := (2 ^ f.eb - 1) * 2 ^ f.fb
def FFmt.inf (f : FFmt) (neg : Bool) : Nat := f.infCode + (if neg then f.signBit else 0)
/-- The largest finite value of the given sign. -/
def FFmt.largest (f : FFmt) (neg : Bool) : Nat := f.infCode - 1 + (if neg then f.signBit else 0)
def FFmt.zero (f : FFmt) (neg : Bool) : Nat := if neg then f.signBit else 0
/-- The canonical NaN (R70). -/
def FFmt.nan (f : FFmt) : Nat := f.infCode + 2 ^ (f.fb - 1)
/-- The poison pattern with the sign bit clear (R70): its lowest BF16 fraction bit, or for FP16 its lowest bit. -/
def FFmt.poison (f : FFmt) : Nat := f.nan + (if f.fb = 23 then 2 ^ 16 else 1)

/-- What the bits of a floating-point lane stand for. -/
inductive FVal where
  | poison
  | nan
  | inf (neg : Bool)
  | fin (neg : Bool) (m : Nat) (e : Int)
deriving DecidableEq, Repr

/-- The reading of the low bits as a value of format f (R69, R70: subnormals exact, a NaN of any payload a NaN). -/
def FFmt.read (f : FFmt) (bits : Nat) : FVal :=
  let b := bits % 2 ^ f.width
  let neg := decide (b ≥ f.signBit)
  let mag := b % f.signBit
  if mag = f.poison then .poison
  else if mag > f.infCode then .nan
  else if mag = f.infCode then .inf neg
  else
    let ef := mag / 2 ^ f.fb
    let fr := mag % 2 ^ f.fb
    if ef = 0 then .fin neg fr f.qmin else .fin neg (fr + 2 ^ f.fb) (f.qmin + (ef - 1))

/-- The magnitude m * 2^e rounded once to format f under rm; the flag says that a finite value lay beyond
the largest finite value after rounding (R93, R117, R120). -/
def roundFP (f : FFmt) (rm : Rm) (neg : Bool) (m : Nat) (e : Int) : Nat × Bool :=
  if m = 0 then (f.zero neg, false)
  else
    let q := max (e + bitLen m - (f.fb + 1)) f.qmin
    let r := if q ≤ e then m * pow2 (e - q) else roundDiv rm neg m (pow2 (q - e))
    let code := (q - f.qmin).toNat * 2 ^ f.fb + r
    if code < f.infCode then (code + f.zero neg, false)
    else
      (match rm with
        | .rne => f.inf neg
        | .rz => f.largest neg
        | .rd => if neg then f.inf neg else f.largest neg
        | .ru => if neg then f.largest neg else f.inf neg, true)

/-- A dyadic value rounded once to format f; an exact zero is plus zero. -/
def roundDy (f : FFmt) (rm : Rm) (d : Dy) : Nat × Bool := roundFP f rm (d.m < 0) d.m.natAbs d.e

/-- The dyadic value of a finite reading. -/
def FVal.dy : FVal → Dy
  | .fin neg m e => ⟨if neg then -(m : Int) else m, e⟩
  | _ => Dy.zero

def FVal.isFin : FVal → Bool
  | .fin _ _ _ => true
  | _ => false

def FVal.isPoison : FVal → Bool
  | .poison => true
  | _ => false

/-- NaN in the sense of a comparison: a poisoned value is a NaN too (R70). -/
def FVal.isNaN : FVal → Bool
  | .poison => true
  | .nan => true
  | _ => false

/-- A finite zero. -/
def FVal.isZero : FVal → Bool
  | .fin _ m _ => m == 0
  | _ => false

def FVal.neg? : FVal → Bool
  | .inf n => n
  | .fin n _ _ => n
  | _ => false

/-- The result of one lane: its bits, and what it adds to the saturation and poison counts (R115). -/
structure LaneRes where
  bits : Nat
  sat : Bool := false
  poi : Bool := false
deriving DecidableEq, Repr

def LaneRes.ofPair (p : Nat × Bool) : LaneRes := { bits := p.1, sat := p.2 }

/-- x * y + z rounded once (R117): the shared body of ADD, SUB, MUL and the FMA forms. -/
def fma (f : FFmt) (x y z : FVal) : LaneRes :=
  if x.isPoison || y.isPoison || z.isPoison then { bits := f.poison, poi := true }
  else if x.isNaN || y.isNaN || z.isNaN then { bits := f.nan }
  else
    let pneg := x.neg? != y.neg?
    let pinf := !x.isFin || !y.isFin
    if pinf && (x.isZero || y.isZero) then { bits := f.nan }
    else if pinf then
      (if !z.isFin && z.neg? != pneg then { bits := f.nan } else { bits := f.inf pneg })
    else if !z.isFin then { bits := f.inf z.neg? }
    else
      let s := (x.dy.mul y.dy).add z.dy
      if s.isZero then
        { bits := f.zero ((x.isZero || y.isZero) && pneg && z.isZero && z.neg?) }
      else .ofPair (roundDy f .rne s)

/-- x * y (R117): an exact zero has the exclusive or of the signs. -/
def fmul (f : FFmt) (x y : FVal) : LaneRes :=
  if x.isPoison || y.isPoison then { bits := f.poison, poi := true }
  else if x.isNaN || y.isNaN then { bits := f.nan }
  else
    let neg := x.neg? != y.neg?
    if !x.isFin || !y.isFin then
      (if x.isZero || y.isZero then { bits := f.nan } else { bits := f.inf neg })
    else if x.isZero || y.isZero then { bits := f.zero neg }
    else .ofPair (roundDy f .rne (x.dy.mul y.dy))

/-- x + y (R117). -/
def fadd (f : FFmt) (x y : FVal) : LaneRes :=
  if x.isPoison || y.isPoison then { bits := f.poison, poi := true }
  else if x.isNaN || y.isNaN then { bits := f.nan }
  else if !x.isFin && !y.isFin then
    (if x.neg? != y.neg? then { bits := f.nan } else { bits := f.inf x.neg? })
  else if !x.isFin then { bits := f.inf x.neg? }
  else if !y.isFin then { bits := f.inf y.neg? }
  else
    let s := x.dy.add y.dy
    if s.isZero then { bits := f.zero (x.isZero && y.isZero && x.neg? && y.neg?) }
    else .ofPair (roundDy f .rne s)

/-- The sign change of a reading. -/
def FVal.negate : FVal → FVal
  | .inf n => .inf (!n)
  | .fin n m e => .fin (!n) m e
  | v => v

/-- The reading with its sign cleared. -/
def FVal.abs : FVal → FVal
  | .inf _ => .inf false
  | .fin _ m e => .fin false m e
  | v => v

/-- The order of MIN and MAX on readings that are no NaN (R117): minus zero lies below plus zero. -/
def FVal.lt : FVal → FVal → Bool
  | .inf a, .inf b => a && !b
  | .inf a, _ => a
  | _, .inf b => !b
  | .fin a m e, .fin b n g =>
      let x := FVal.dy (.fin a m e)
      let y := FVal.dy (.fin b n g)
      x.lt y || (x.isZero && y.isZero && a && !b)
  | _, _ => false

/-- a < b as CMP reads it (R118): the zeros are equal. -/
def FVal.ltNum (a b : FVal) : Bool := if a.isZero && b.isZero then false else a.lt b

/-- a = b as CMP reads it. -/
def FVal.eqNum (a b : FVal) : Bool := !(a.ltNum b) && !(b.ltNum a)

/-- The code of a reading in format f when no rounding is needed (sign changes of f's own values). -/
def FVal.code (f : FFmt) : FVal → Nat
  | .poison => f.poison
  | .nan => f.nan
  | .inf n => f.inf n
  | .fin n m e => (roundFP f .rne n m e).1

/-- Conversion of a float reading to another float type (R120). -/
def cvtFF (f : FFmt) (rm : Rm) : FVal → LaneRes
  | .poison => { bits := f.poison, poi := true }
  | .nan => { bits := f.nan }
  | .inf n => { bits := f.inf n }
  | .fin n m e => .ofPair (roundFP f rm n m e)

/-- Conversion of a float reading to a w-bit integer or fixed-point type with fraction width fw (R71). -/
def cvtFI (w : Nat) (fw : Nat) (rm : Rm) : FVal → LaneRes
  | .poison => { bits := ofSigned w (minSigned w), poi := true }
  | .nan => { bits := 0 }
  | .inf n => { bits := ofSigned w (if n then minSigned w else maxSigned w), sat := true }
  | v =>
      let c := clampSigned w (Dy.round rm (v.dy.scale fw))
      { bits := ofSigned w c.1, sat := c.2 }

/-- Conversion of an exact value to a float type under rm (R120): an exact zero is plus zero. -/
def cvtDF (f : FFmt) (rm : Rm) (d : Dy) : LaneRes := .ofPair (roundDy f rm d)

/-- Conversion of an exact value to a w-bit type with fraction width fw (R120). -/
def cvtDI (w : Nat) (fw : Nat) (rm : Rm) (d : Dy) : LaneRes :=
  let c := clampSigned w (Dy.round rm (d.scale fw))
  { bits := ofSigned w c.1, sat := c.2 }

end Sys2Proof.Machine
end

