-- ==== Sys2Proof/Machine/Blocks.lean ====
section
/-! DEFINITION. Block-scaled formats (spec/02 R43-R61): headers, element codes, the outlier sidecar, and the
quantiser with the residual check of QPACK (R62-R65, spec/04 R131-R134). -/
namespace Sys2Proof.Machine

/-- The block formats of R43. -/
inductive BqFmt where
  | bq1 | bq2 | bq4 | bq8
deriving DecidableEq, Repr

/-- Element code width in bits (R43). -/
def BqFmt.codeBits : BqFmt → Nat
  | .bq1 => 1
  | .bq2 => 2
  | .bq4 => 4
  | .bq8 => 8

/-- Code bytes and block size (R43). -/
def BqFmt.codeBytes (f : BqFmt) : Nat := 4 * f.codeBits
def BqFmt.size (f : BqFmt) : Nat := 2 + f.codeBytes

/-- qmax of R62. -/
def BqFmt.qmax : BqFmt → Nat
  | .bq1 => 1
  | .bq2 => 1
  | .bq4 => 7
  | .bq8 => 127

/-- The value of an element code (R49-R52); u is mode U of BQ1. -/
def BqFmt.codeVal (f : BqFmt) (u : Bool) (c : Nat) : Int :=
  match f with
  | .bq1 => if c % 2 = 1 then 1 else if u then 0 else -1
  | _ => toSigned f.codeBits c

/-- The code of an element value the quantiser emits. -/
def BqFmt.codeOf (f : BqFmt) (v : Int) : Nat := ofSigned f.codeBits v

/-- Element code i of the code bytes, read as one little-endian number (R48). -/
def BqFmt.codeAt (f : BqFmt) (code i : Nat) : Nat := code / 2 ^ (f.codeBits * i) % 2 ^ f.codeBits

/-- The code bytes that hold the 32 codes in order (R48). -/
def BqFmt.pack (f : BqFmt) (codes : List Nat) : List Byte :=
  bytesLE ((codes.foldr (fun c a => a * 2 ^ f.codeBits + c % 2 ^ f.codeBits) 0)) f.codeBytes

/-- A header (R44). -/
structure Header where
  e : Nat
  ocnt : Nat
  pz : Bool
  ts : Nat
deriving DecidableEq, Repr

def Header.ofNat (n : Nat) : Header :=
  { e := bitsOf n 15 8, ocnt := bitsOf n 7 6, pz := natBit n 5, ts := bitsOf n 4 3 }

/-- Headers are written with bits [2:0] zero (R46). -/
def Header.toNat (h : Header) : Nat := h.e % 256 * 256 + h.ocnt % 4 * 64 + h.pz.toNat * 32 + h.ts % 4 * 8

/-- Sidecar entries a block takes: OCNT, or none when OCNT = 3 (R46, R47, R60). -/
def Header.takes (h : Header) : Nat := if h.ocnt = 3 then 0 else h.ocnt

/-- One popped sidecar entry: whether it was valid, and its 32 bits (R59). -/
structure SideEntry where
  valid : Bool
  bits : Nat
deriving DecidableEq, Repr

def SideEntry.idx (s : SideEntry) : Nat := bitsOf s.bits 15 11
def SideEntry.val (s : SideEntry) : Nat := bitsOf s.bits 31 16

/-- A block with its sidecar entries, as its consumer reads it. -/
structure Block where
  hdr : Header
  code : Nat
  side : List SideEntry
  poisoned : Bool
  malformed : Bool
deriving DecidableEq, Repr

/-- The reading of a block: the block is poisoned by PZ, and poisoned and counted as a format error by OCNT = 3
(R46), by indices that do not ascend (R60), by a missing sidecar or by an invalid entry (R90). -/
def Block.read (bytes : List Byte) (present : Bool) (side : List SideEntry) : Block :=
  let h := Header.ofNat (natLE (bytes.take 2))
  let ascend := match side with
    | [a, b] => decide (a.idx < b.idx)
    | _ => true
  let bad := h.ocnt == 3 || (h.takes > 0 && (!present || side.any (fun s => !s.valid) || !ascend))
  { hdr := h, code := natLE (bytes.drop 2),
    side := if present && !bad then side else [], poisoned := h.pz || bad, malformed := bad }

/-- The outlier entry that names element i. -/
def Block.outlier (b : Block) (i : Nat) : Option SideEntry := b.side.find? (fun s => s.idx == i)

/-- The value of element i (R45, R61); a poisoned element of an unpoisoned block is one whose outlier is not
finite. -/
def Block.elem (f : BqFmt) (u : Bool) (b : Block) (i : Nat) : FVal :=
  match b.outlier i with
  | some s => (match FFmt.bf16.read s.val with
      | .fin n m e => .fin n m e
      | _ => .poison)
  | none =>
      if b.hdr.e = 0 then .fin false 0 0
      else
        let c := f.codeVal u (f.codeAt b.code i)
        .fin (c < 0) c.natAbs ((b.hdr.e : Int) - 127)

/-- The element codes' exact value without outliers, used by the matrix arrays. -/
def Block.codeVal (f : BqFmt) (u : Bool) (b : Block) (i : Nat) : Int := f.codeVal u (f.codeAt b.code i)

/-- Does an outlier entry of the block hold an infinity, a NaN or the poison pattern (R61, R96)? -/
def Block.badOutlier (b : Block) : Bool := b.side.any (fun s => !(FFmt.bf16.read s.val).isFin)

/-- The bytes of a block. -/
def blockBytes (f : BqFmt) (h : Header) (codes : List Nat) : List Byte := bytesLE h.toNat 2 ++ f.pack codes

/-- The poisoned block of R64: E = 0, OCNT = 0, PZ = 1, all codes 0. -/
def poisonBlock (f : BqFmt) (ts : Nat) : List Byte :=
  blockBytes f { e := 0, ocnt := 0, pz := true, ts := ts } (List.replicate 32 0)

/-- The smallest e from e0 upwards with m ≤ q * 2^e; fuel bounds the search. -/
def leastExp (m : Dy) (q : Nat) : Nat → Int → Int
  | 0, e => e
  | f + 1, e => if m.le ⟨q, e⟩ then e else leastExp m q f (e + 1)

/-- E of R62 for the largest retained magnitude m. -/
def chooseE (q : Nat) (m : Dy) : Nat :=
  if m.isZero then 0
  else
    let e := leastExp m q 4 (m.e + bitLen m.m.natAbs - bitLen q - 1)
    (max 1 (min 255 (e + 127))).toNat

/-- The largest magnitude of a list of exact values. -/
def maxAbs (l : List Dy) : Dy := l.foldl (fun a x => if a.lt x.abs then x.abs else a) Dy.zero

/-- The value an element takes before its code, clamped; the flag says that the clamp acted (R63, R65, R94). -/
def quantVal (f : BqFmt) (u : Bool) (e : Nat) (x : Dy) : Int × Bool :=
  match f, u with
  | .bq1, false => (if x.m < 0 then -1 else 1, false)
  | _, _ =>
      let r := Dy.round .rne (x.scale (127 - (e : Int)))
      let lo : Int := if f = .bq1 then 0 else -(f.qmax : Int)
      if r < lo then (lo, true) else if r > f.qmax then (f.qmax, true) else (r, false)

/-- The code of a retained element under scale exponent e (R63, R65). -/
def quantCode (f : BqFmt) (u : Bool) (e : Nat) (x : Dy) : Nat :=
  if e = 0 then 0
  else match f, u with
    | .bq1, false => if x.m < 0 then 0 else 1
    | _, _ => f.codeOf (quantVal f u e x).1

/-- The control word of QPACK (R131); none for a reserved encoding. -/
structure QpackCtl where
  osh : Nat
  rsel : Nat
  nout : Nat
  u : Bool
  ts : Nat
  fmt : BqFmt
deriving DecidableEq, Repr

def QpackCtl.ofWord (w : Word) : Option QpackCtl :=
  let fmt := match fld w 2 0 with
    | 0 => some BqFmt.bq1
    | 1 => some BqFmt.bq2
    | 2 => some BqFmt.bq4
    | 3 => some BqFmt.bq8
    | _ => none
  match fmt with
  | none => none
  | some f =>
      if fld w 11 10 = 3 || fld w 9 8 = 3 then none
      else some { osh := fld w 15 12, rsel := fld w 11 10, nout := fld w 9 8, u := bitAt w 5,
                  ts := fld w 4 3, fmt := f }

/-- Insert an indexed value into a list ordered by magnitude, descending, ties by the lower index (R132). -/
def insertBySize (x : Nat × Dy) : List (Nat × Dy) → List (Nat × Dy)
  | [] => [x]
  | y :: l => if y.2.abs.lt x.2.abs then x :: y :: l else y :: insertBySize x l

/-- The indices of the outliers (R132), in ascending order. -/
def outliers (c : QpackCtl) (xs : List Dy) : List Nat :=
  let ord := (xs.zipIdx.map (fun p => (p.2, p.1))).foldl (fun l p => insertBySize p l) []
  let ref := ((ord.getD c.nout (0, Dy.zero)).2.abs).scale c.osh
  let pick := (ord.take c.nout).filter (fun p => ref.lt p.2.abs)
  (List.range 32).filter (fun i => pick.any (fun p => p.1 == i))

/-- What QPACK makes of one block: the block, its sidecar entries, and what it counts (R64, R133, R134). -/
structure QpackOut where
  block : List Byte
  side : List Nat
  flagged : Bool
  poisoned : Bool
  outSat : Nat
deriving DecidableEq, Repr

/-- The BF16 value of an outlier (R133): rounded once by RNE; an overflow gives the largest finite value. -/
def outlierVal (x : Dy) : Nat × Bool :=
  let r := roundDy .bf16 .rne x
  if r.2 then (FFmt.bf16.largest (x.m < 0), true) else r

/-- The residual check of R134 for inputs xs and decoded values ds. -/
def residualFlag (rsel : Nat) (tau : FVal) (xs ds : List Dy) : Bool :=
  let rs := List.zipWith Dy.sub xs ds
  match tau with
  | .poison => true
  | .nan => true
  | .inf n => n
  | .fin n m e =>
      if n && m != 0 then true
      else
        let t : Dy := ⟨m, e⟩
        match rsel with
        | 0 => t.lt (maxAbs rs)
        | 1 => if (maxAbs xs).isZero then false else (t.mul (maxAbs xs)).lt (maxAbs rs)
        | _ =>
            let sq := fun (l : List Dy) => l.foldl (fun a x => a.add (x.mul x)) Dy.zero
            if (maxAbs xs).isZero then false else ((t.mul t).mul (sq xs)).lt (sq rs)

/-- QPACK of 32 inputs (R62-R65, R131-R134). -/
def qpack (c : QpackCtl) (tau : FVal) (vs : List FVal) : QpackOut :=
  if vs.any (fun v => !v.isFin) then
    { block := poisonBlock c.fmt c.ts, side := [], flagged := false, poisoned := true, outSat := 0 }
  else
    let xs := vs.map FVal.dy
    let out := outliers c xs
    let kept := fun i => !(out.contains i)
    let m := maxAbs ((xs.zipIdx.filter (fun p => kept p.2)).map (fun p => p.1))
    let e := chooseE c.fmt.qmax m
    let codes := xs.zipIdx.map (fun p => if kept p.2 then quantCode c.fmt c.u e p.1 else 0)
    let vals := out.map (fun i => outlierVal (xs.getD i Dy.zero))
    let side := List.zipWith (fun i (v : Nat × Bool) => v.1 * 2 ^ 16 + i * 2 ^ 11) out vals
    let h : Header := { e := e, ocnt := out.length, pz := false, ts := c.ts }
    let blk : Block := { hdr := h, code := natLE (c.fmt.pack codes),
                         side := side.map (fun b => { valid := true, bits := b }),
                         poisoned := false, malformed := false }
    let ds := (List.range 32).map (fun i => (blk.elem c.fmt c.u i).dy)
    { block := blockBytes c.fmt h codes, side := side, flagged := residualFlag c.rsel tau xs ds,
      poisoned := false, outSat := (vals.filter (fun v => v.2)).length }

end Sys2Proof.Machine
end

