-- ==== Sys2Proof/Machine/Tab.lean ====
section
/-! DEFINITION. Sparse tables: lists of (key, value) pairs with strictly rising keys and no pair whose value
is what an unlisted key reads as. Memories, register files and every array of the block are held so, and
equal contents are equal lists. -/
namespace Sys2Proof.Machine

/-- A sparse table from natural keys. -/
abbrev Tab (α : Type) := List (Nat × α)

/-- The pair listed for key k, if any. -/
def Tab.find {α : Type} : Tab α → Nat → Option α
  | [], _ => none
  | (a, x) :: t, k => if k = a then some x else Tab.find t k

/-- What the table reads at k: its listed value, or the default d k. -/
def Tab.get {α : Type} (d : Nat → α) (t : Tab α) (k : Nat) : α := (Tab.find t k).getD (d k)

/-- The table with (k, v) listed at its place. -/
def Tab.put {α : Type} (k : Nat) (v : α) : Tab α → Tab α
  | [] => [(k, v)]
  | (a, x) :: t => if k < a then (k, v) :: (a, x) :: t else if k = a then (k, v) :: t else (a, x) :: Tab.put k v t

/-- The table with no pair for k. -/
def Tab.erase {α : Type} (k : Nat) : Tab α → Tab α
  | [] => []
  | (a, x) :: t => if k = a then Tab.erase k t else (a, x) :: Tab.erase k t

/-- The table with v at key k; a value equal to the default is not listed. -/
def Tab.set {α : Type} [DecidableEq α] (d : Nat → α) (t : Tab α) (k : Nat) (v : α) : Tab α :=
  if v = d k then Tab.erase k t else Tab.put k v t

/-- Every key of the table is above b and the keys rise strictly. -/
def Tab.rising {α : Type} : Nat → Tab α → Bool
  | _, [] => true
  | b, (a, _) :: t => decide (b ≤ a) && Tab.rising (a + 1) t

/-- No listed value is the default of its key. -/
def Tab.noDefault {α : Type} [DecidableEq α] (d : Nat → α) : Tab α → Bool
  | [] => true
  | (a, x) :: t => decide (x ≠ d a) && Tab.noDefault d t

/-- The canonical form of a table. -/
def Tab.wf {α : Type} [DecidableEq α] (d : Nat → α) (t : Tab α) : Bool := Tab.rising 0 t && Tab.noDefault d t

/-- The default of a table of words: zero. -/
def zeroW (_ : Nat) : Word := 0

/-- The default of a table of numbers: zero. -/
def zeroN (_ : Nat) : Nat := 0

/-- Reading and writing a table of words whose unlisted entries are zero. -/
def Tab.w (t : Tab Word) (k : Nat) : Word := Tab.get zeroW t k
def Tab.setW (t : Tab Word) (k : Nat) (v : Word) : Tab Word := Tab.set zeroW t k v

/-- A memory: one byte at each address. What an unlisted address reads as is zero (logs 2, 3, 4). -/
abbrev Memory := Tab Byte

/-- What an address that nothing has written reads as. -/
def Memory.unwritten (_ : Nat) : Byte := 0

/-- One byte of a memory. -/
def Memory.byte (m : Memory) (a : Nat) : Byte := Tab.get Memory.unwritten m a

/-- A memory with byte b at address a. -/
def Memory.setByte (m : Memory) (a : Nat) (b : Byte) : Memory := Tab.set Memory.unwritten m a b

/-- n bytes from address a. -/
def Memory.bytes (m : Memory) (a : Nat) : Nat → List Byte
  | 0 => []
  | n + 1 => Memory.byte m a :: Memory.bytes m (a + 1) n

/-- The bytes written from address a upwards. -/
def Memory.setBytes (m : Memory) (a : Nat) : List Byte → Memory
  | [] => m
  | b :: bs => Memory.setBytes (Memory.setByte m a b) (a + 1) bs

/-- The canonical form of a memory: addresses strictly rising, no byte equal to what is unwritten. -/
def Memory.wf (m : Memory) : Bool := Tab.wf Memory.unwritten m

end Sys2Proof.Machine
end

