-- ==== Sys2Proof/Machine/VxMath.lean ====
section
/-! DEFINITION. The transcendental functions (spec/04 R121-R123): the special cases, the correctly rounded
16-bit functions and reciprocals, and the binary64 reference computation of FP32. The constants are the
binary64 roundings that R123 defines, worked out from their formulas. -/
namespace Sys2Proof.Machine

/-- C_i of R123, i = 1-5. -/
def expC : List Dy :=
  [⟨6243314768165359, -53⟩, ⟨8655072057804175, -55⟩, ⟨124984141550211, -51⟩, ⟨5544473941134967, -59⟩,
   ⟨6149018367977265, -62⟩]

/-- T[j] of R123, j = 0-63. -/
def expT : List Dy :=
  [⟨1, 0⟩, ⟨4552640611975265, -52⟩, ⟨1150553904472413, -50⟩, ⟨581541307528057, -49⟩,
   ⟨4702991017412879, -52⟩, ⟨2377101615950033, -51⟩, ⟨4805973110840145, -52⟩, ⟨151822085212527, -47⟩,
   ⟨4911210218475899, -52⟩, ⟨4964689791404917, -52⟩, ⟨2509375859350741, -51⟩, ⟨2536701170894443, -51⟩,
   ⟨641081008892999, -49⟩, ⟨5184495387049181, -52⟩, ⟨5240950840352481, -52⟩, ⟨5298021053235979, -52⟩,
   ⟨5355712719992597, -52⟩, ⟨5414032607811327, -52⟩, ⟨5472987557571019, -52⟩, ⟨5532584484642807, -52⟩,
   ⟨2796415189850641, -51⟩, ⟨2826866154772245, -51⟩, ⟨5715297417922861, -52⟩, ⟨361095807898573, -48⟩]
  ++ [⟨5840446135085607, -52⟩, ⟨5904044423720103, -52⟩, ⟨2984167626155969, -51⟩, ⟨3016663081063405, -51⟩,
   ⟨6099024776549417, -52⟩, ⟨770679850247209, -49⟩, ⟨6232576028726661, -52⟩, ⟨6300444331942437, -52⟩,
   ⟨6369051672525773, -52⟩, ⟨6438406098065967, -52⟩, ⟨1627128935946205, -50⟩, ⟨6579388833490889, -52⟩,
   ⟨6651033680544135, -52⟩, ⟨3361729344415537, -51⟩, ⟨6796672353750547, -52⟩, ⟨6870683263210221, -52⟩,
   ⟨6945500098633947, -52⟩, ⟨3510565817990043, -51⟩, ⟨7097586746770917, -52⟩, ⟨448429649945829, -48⟩,
   ⟨453312728678153, -48⟩, ⟨7331983690425701, -52⟩, ⟨7411823758157149, -52⟩, ⟨7492533227224511, -52⟩]
  ++ [⟨7574121564787629, -52⟩, ⟨7656598341096955, -52⟩, ⟨7739973230616135, -52⟩, ⟨3912128006578409, -51⟩,
   ⟨1977364143756455, -50⟩, ⟨7995584910184779, -52⟩, ⟨8082651121422441, -52⟩, ⟨2042666355384927, -50⟩,
   ⟨8259638134547591, -52⟩, ⟨8349579696878213, -52⟩, ⟨8440500658608991, -52⟩, ⟨4266205842350075, -51⟩,
   ⟨4312661778122861, -51⟩, ⟨8719247171738151, -52⟩, ⟨137721774192917, -46⟩, ⟨1113771727901211, -49⟩]

/-- D_i of R123, i = 1-7. -/
def logD : List Dy :=
  [⟨3248660424278399, -51⟩, ⟨-3248660424278399, -52⟩, ⟨8663094464742397, -54⟩, ⟨-3248660424278399, -53⟩,
   ⟨2598928339422719, -53⟩, ⟨-8663094464742397, -55⟩, ⟨7425509541207769, -55⟩]

/-- LOG2E of R123. -/
def log2eC : Dy := ⟨3248660424278399, -51⟩

/-- THIRD of R123. -/
def thirdC : Dy := ⟨6004799503160661, -54⟩

/-- G of R123 for j = -16 to 32, listed from j = -16. -/
def logG : List Dy :=
  [⟨6004799503160661, -52⟩, ⟨5882252574524729, -52⟩, ⟨5764607523034235, -52⟩, ⟨1412894000743685, -50⟩,
   ⟨1385722962267845, -50⟩, ⟨5438308983994561, -52⟩, ⟨667199944795629, -49⟩, ⟨2620276146833743, -51⟩,
   ⟨2573485501354569, -51⟩, ⟨316042079113719, -48⟩, ⟨2484744621997515, -51⟩, ⟨4885260612740877, -52⟩,
   ⟨4803839602528529, -52⟩, ⟨4725088133634619, -52⟩, ⟨1162219258676257, -50⟩, ⟨285942833483841, -48⟩,
   ⟨1, 0⟩, ⟨277144592453569, -48⟩, ⟨1091781727847393, -50⟩, ⟨8603891825424231, -53⟩,
   ⟨4238682002231055, -52⟩, ⟨8354503656571355, -53⟩, ⟨8235153604334621, -53⟩, ⟨8119165525400331, -53⟩]
  ++ [⟨2001599834386887, -51⟩, ⟨246772582321671, -48⟩, ⟨486875635391405, -49⟩, ⟨7686143364045647, -53⟩,
   ⟨948126237341157, -50⟩, ⟨3743251638333919, -52⟩, ⟨3695261232714253, -52⟩, ⟨7296971548144601, -53⟩,
   ⟨3602879701896397, -52⟩, ⟨222399981598543, -48⟩, ⟨3515004587215997, -52⟩, ⟨3472655134357973, -52⟩,
   ⟨857828500451523, -50⟩, ⟨847736400446211, -50⟩, ⟨1675758000882045, -51⟩, ⟨828248207332505, -50⟩,
   ⟨3275345183542179, -52⟩, ⟨404817944033303, -49⟩, ⟨6405119470038039, -53⟩, ⟨6334733541795863, -53⟩,
   ⟨1566469435607129, -51⟩, ⟨3099251356470019, -52⟩, ⟨6132561194717271, -53⟩, ⟨6068007918983405, -53⟩]
  ++ [⟨6004799503160661, -53⟩]

/-- L of R123 for j = -16 to 32, listed from j = -16. -/
def logL : List Dy :=
  [⟨-7476650908387933, -54⟩, ⟨-433798150618067, -50⟩, ⟨-6415716524083435, -54⟩, ⟨-737632553916595, -51⟩,
   ⟨-2698199147509557, -53⟩, ⟨-4901349357777239, -54⟩, ⟨-4415554215681817, -54⟩, ⟨-3938673250794085, -54⟩,
   ⟨-433798150618067, -51⟩, ⟨-6020771759500463, -55⟩, ⟨-2558386949691979, -54⟩, ⟨-4228229753306795, -55⟩,
   ⟨-6709239662754635, -56⟩, ⟨-2495450405939793, -55⟩, ⟨-412562958947725, -53⟩, ⟨-6548616195814719, -58⟩,
   ⟨0, 0⟩, ⟨3223541581441289, -57⟩, ⟨6397866860805505, -57⟩, ⟨4762228056301469, -56⟩,
   ⟨787795238527587, -53⟩, ⟨7820011249707961, -56⟩, ⟨4657911575509477, -55⟩, ⟨5395208572808729, -55⟩]
  ++ [⟨6122193385412235, -55⟩, ⟨3419575250551259, -54⟩, ⟨7546352795184273, -55⟩, ⟨2061015538505307, -53⟩,
   ⟨8932530057275405, -55⟩, ⟨1201499765261021, -52⟩, ⟨2570674653037469, -53⟩, ⟨5472427457170925, -54⟩,
   ⟨2899670496349637, -53⟩, ⟨6122193385412233, -54⟩, ⟨6441084299054301, -54⟩, ⟨6756109773053011, -54⟩,
   ⟨3533681198074757, -53⟩, ⟨7374931469754449, -54⟩, ⟨7678903161750177, -54⟩, ⟨7979360651402071, -54⟩,
   ⟨4138192132994311, -53⟩, ⟨8570051609711827, -54⟩, ⟨4430218842702695, -53⟩, ⟨2286903752379583, -52⟩,
   ⟨4715826860407463, -53⟩, ⟨4856310841599299, -53⟩, ⟨2497646145759239, -52⟩, ⟨641600376333561, -50⟩]
  ++ [⟨2634436900273513, -52⟩]

/-- ln 2 and log2 e in units of 2^-320, rounded down: the exact functions of R122 are computed with them. -/
def ln2Fix : Nat := 1480553391661173448385607439722553250922680800745876974795605978609098082859138712941075737848984
def log2eFix : Nat := 3081577904126213121686167198097690134163479766071396094403848907535455306605342191083616308484524

/-- RN64 of a dyadic value. -/
def rn64 (d : Dy) : Dy := (FFmt.fp64.read (roundDy .fp64 .rne d).1).dy

/-- The binary64 operations of R123 on finite values. -/
def mul64 (a b : Dy) : Dy := rn64 (a.mul b)
def add64 (a b : Dy) : Dy := rn64 (a.add b)
def sub64 (a b : Dy) : Dy := rn64 (a.sub b)
def fma64 (a b c : Dy) : Dy := rn64 ((a.mul b).add c)

/-- A positive quotient n / d as a dyadic value whose last bit is sticky: rounding it to at most 60 bits gives
the rounding of the quotient. -/
def quotient (n d : Dy) : Dy :=
  let k := bitLen d.m.natAbs + 66
  let num := n.m.natAbs * 2 ^ k
  let q := num / d.m.natAbs
  let r := num % d.m.natAbs
  ⟨2 * q + (if r = 0 then 0 else 1), n.e - d.e - k - 1⟩

/-- a ⊘ b of R123, both positive. -/
def div64 (a b : Dy) : Dy := rn64 (quotient a b)

def dyOne : Dy := ⟨1, 0⟩

/-- The entry of a list of constants. -/
def dyAt (l : List Dy) (i : Nat) : Dy := l.getD i Dy.zero

/-- E64 of R123. -/
def e64 (y0 : Dy) : Dy :=
  let lo : Dy := ⟨-200, 0⟩
  let hi : Dy := ⟨200, 0⟩
  let y := if y0.lt lo then lo else if hi.lt y0 then hi else y0
  let k := Dy.round .rne (y.scale 6)
  let n := k / 64
  let j := (k - 64 * n).toNat
  let r := y.sub ⟨k, -6⟩
  let p := fma64 (dyAt expC 4) r (dyAt expC 3)
  let p := fma64 p r (dyAt expC 2)
  let p := fma64 p r (dyAt expC 1)
  let p := fma64 p r (dyAt expC 0)
  let p := fma64 p r dyOne
  (mul64 (dyAt expT j) p).scale n

/-- LOG2 of R123 before its last rounding, for x = m * 2^e > 0. -/
def log64 (m : Nat) (e : Int) : Dy :=
  let b := bitLen m
  let m1 : Dy := ⟨m, 1 - (b : Int)⟩
  let e1 := e + b - 1
  let up := Dy.le ⟨3, -1⟩ m1
  let mm := if up then m1.scale (-1) else m1
  let ee := if up then e1 + 1 else e1
  let j := Dy.round .rne ((mm.sub dyOne).scale 6)
  let i := (j + 16).toNat
  let r := fma64 (dyAt logG i) mm dyOne.neg
  let q := fma64 (dyAt logD 6) r (dyAt logD 5)
  let q := fma64 q r (dyAt logD 4)
  let q := fma64 q r (dyAt logD 3)
  let q := fma64 q r (dyAt logD 2)
  let q := fma64 q r (dyAt logD 1)
  let q := fma64 q r (dyAt logD 0)
  let q := mul64 q r
  add64 (add64 ⟨ee, 0⟩ (dyAt logL i)) q

/-- SIGMOID of R123 before its last rounding. -/
def sigmoid64 (x : Dy) : Dy :=
  let u := e64 (mul64 x log2eC).neg
  div64 dyOne (add64 dyOne u)

/-- TANH of R123 for x ≠ 0, before its last rounding, with the sign of x. -/
def tanh64 (x : Dy) : Dy :=
  let a := x.abs
  if a.lt ⟨1, -12⟩ then
    let p := mul64 (mul64 x x) x
    sub64 x (mul64 p thirdC)
  else
    let u := e64 (mul64 (a.scale 1) log2eC).neg
    let t := div64 (sub64 dyOne u) (add64 dyOne u)
    let t := if (sub64 dyOne u).isZero then Dy.zero else t
    if x.m < 0 then t.neg else t

/-- Fraction bits of the fixed-point numbers by which the exact functions of R122 are rounded. -/
def fixK : Nat := 320

/-- The terms of exp(t) from term i on, t in units of 2^-fixK. -/
def expTerms (t : Nat) : Nat → Nat → Nat → Nat
  | 0, _, _ => 0
  | f + 1, i, term => term + expTerms t f (i + 1) (term * t / 2 ^ fixK / (i + 1))

/-- 2^f in units of 2^-fixK for a fraction f in the same units. -/
def exp2Fix (f : Nat) : Nat := expTerms (f * ln2Fix / 2 ^ fixK) 90 0 (2 ^ fixK)

/-- The terms z^(2i+1) / (2i+1) of the inverse hyperbolic tangent. -/
def atanhTerms (z2 : Nat) : Nat → Nat → Nat → Nat
  | 0, _, _ => 0
  | f + 1, i, p => p / (2 * i + 1) + atanhTerms z2 f (i + 1) (p * z2 / 2 ^ fixK)

/-- log2 of m * 2^-b for a mantissa between 1 and 2, in units of 2^-fixK. -/
def log2Fix (m b : Nat) : Nat :=
  let one := 2 ^ b
  let z := (m - one) * 2 ^ fixK / (m + one)
  2 * atanhTerms (z * z / 2 ^ fixK) 110 0 z * log2eFix / 2 ^ fixK

/-- A dyadic value floored to units of 2^-fixK. -/
def toFix (d : Dy) : Int := (d.scale fixK).floor

/-- A value in units of 2^-fixK that lies a little below the exact one: a sticky bit is appended. -/
def sticky (n : Nat) (e : Int) : Dy := ⟨2 * n + 1, e - fixK - 1⟩

/-- 2^y for y in units of 2^-fixK, as a value with a sticky last bit. -/
def pow2Fix (y : Int) : Dy :=
  let n := y / (2 ^ fixK : Int)
  let f := (y % (2 ^ fixK : Int)).toNat
  if f = 0 then ⟨1, n⟩ else sticky (exp2Fix f) n

/-- e^y for a dyadic y of magnitude at most 512. -/
def expExact (y : Dy) : Dy := pow2Fix ((y.mul ⟨log2eFix, 0⟩).floor)

/-- d limited to the range from -400 to 400, beyond which every 16-bit result is the limit's. -/
def clip400 (d : Dy) : Dy := if d.lt ⟨-400, 0⟩ then ⟨-400, 0⟩ else if Dy.lt ⟨400, 0⟩ d then ⟨400, 0⟩ else d

/-- The six functions of R121. -/
inductive Transc where
  | exp2 | log2 | rcp | rsqrt | tanh | sigmoid
deriving DecidableEq, Repr

/-- 1 / sqrt(m * 2^e) with a sticky last bit. -/
def rsqrtDy (m : Nat) (e : Int) : Dy :=
  let odd := e % 2 ≠ 0
  let m2 := if odd then 2 * m else m
  let e2 := if odd then e - 1 else e
  let k := bitLen m2 + 70
  let t := Nat.sqrt (2 ^ (2 * k) / m2)
  ⟨2 * t + (if t * t * m2 = 2 ^ (2 * k) then 0 else 1), -(e2 / 2) - k - 1⟩

/-- The exact value of a function at a finite argument x ≠ 0 in its domain, as a dyadic value that rounds to at
most 24 bits as the exact value does (R122). -/
def transcExact (fn : Transc) (neg : Bool) (m : Nat) (e : Int) : Dy :=
  let x : Dy := ⟨if neg then -(m : Int) else m, e⟩
  match fn with
  | .exp2 => pow2Fix (toFix (clip400 x))
  | .log2 =>
      let b := bitLen m - 1
      let n := e + b
      if m = 2 ^ b then ⟨n, 0⟩
      else
        let v := n * (2 ^ fixK : Int) + log2Fix m b
        if v < 0 then ⟨2 * v + 1, -(fixK : Int) - 1⟩ else ⟨2 * v + 1, -(fixK : Int) - 1⟩
  | .rcp => let q := quotient dyOne ⟨m, e⟩; if neg then q.neg else q
  | .rsqrt => rsqrtDy m e
  | .tanh =>
      if x.abs.lt ⟨1, -12⟩ then x
      else
        let u := expExact ((clip400 x.abs).scale 1).neg
        let q := quotient (dyOne.sub u) (dyOne.add u)
        if neg then q.neg else q
  | .sigmoid => quotient dyOne (dyOne.add (expExact (clip400 x).neg))

/-- The result of a transcendental opcode on one lane of type f (R121-R123). -/
def transc (f : FFmt) (fn : Transc) (v : FVal) : LaneRes :=
  let one := (roundFP f .rne false 1 0).1
  let half := (roundFP f .rne false 1 (-1)).1
  match v with
  | .poison => { bits := f.poison, poi := true }
  | .nan => { bits := f.nan }
  | .inf n =>
      { bits := match fn, n with
          | .exp2, false => f.inf false
          | .exp2, true => f.zero false
          | .log2, false => f.inf false
          | .log2, true => f.nan
          | .rcp, n => f.zero n
          | .rsqrt, false => f.zero false
          | .rsqrt, true => f.nan
          | .tanh, n => one + f.zero n
          | .sigmoid, false => one
          | .sigmoid, true => f.zero false }
  | .fin neg m e =>
      if m = 0 then
        { bits := match fn with
            | .exp2 => one
            | .log2 => f.inf true
            | .rcp => f.inf neg
            | .rsqrt => f.inf neg
            | .tanh => f.zero neg
            | .sigmoid => half }
      else if neg && (fn == .log2 || fn == .rsqrt) then { bits := f.nan }
      else if f = .fp32 && !(fn == .rcp || fn == .rsqrt) then
        let x : Dy := ⟨if neg then -(m : Int) else m, e⟩
        .ofPair (roundDy f .rne (match fn with
          | .exp2 => e64 x
          | .log2 => log64 m e
          | .tanh => tanh64 x
          | _ => sigmoid64 x))
      else .ofPair (roundDy f .rne (transcExact fn neg m e))

end Sys2Proof.Machine
end

