-- ==== Sys2Proof/Syntax.lean ====
section
/-! DEFINITION. The commands of the block: one constructor of Instr for each row of spec/opcode_table.json, with the
row's operands. What comes from outside (another module, the host's memory, a sensor) is an operand. -/
namespace Sys2Proof
open Machine

/-- A logical core of this module (spec/01 R19, R20): die 0-3, cluster 0-11, slot 0-15. -/
structure CoreId where
  die : Nat
  cluster : Nat
  slot : Nat
deriving DecidableEq, Repr

/-- A 32-bit UnitID (R19). -/
abbrev UnitId := BitVec 32

/-- The lane and block types of R193. -/
inductive VxType where
  | fp32 | fp16 | bf16 | int32 | int16 | int8 | fx32 | fx64 | raw128 | bq1 | bq2 | bq4 | bq8
deriving DecidableEq, Repr

/-- A source operand of a VX command (R105, R193). -/
inductive VxSrc where
  | q (n : Nat)
  | addr (p : Nat)
  | rep (p : Nat)
  | bc (s : Nat)
  | none
deriving DecidableEq, Repr

/-- The destination operand of a VX command (R105, R193). -/
inductive VxDst where
  | q (n : Nat)
  | addr (p : Nat)
  | none
deriving DecidableEq, Repr

/-- The fields of a VX command (R104, R192). A field that the row's format does not hold is zero or none. -/
structure VxCmd where
  ty : VxType
  sa : VxSrc
  sb : VxSrc
  dst : VxDst
  pl : Nat
  px : Nat
  sc : Option Nat
  mq : Option Nat
  mz : Bool
  shb : Nat
  imm : Nat
  dty : VxType
  rm : Rm
  py : Nat
deriving DecidableEq, Repr

/-- The operand pairs of R54, with the BQ1 modes (true: U) of R190. -/
inductive FmtPair where
  | bq1 (wu au : Bool)
  | bq2
  | bq4
  | bq8
  | bq4x8
  | bq8x4
  | bh16
deriving DecidableEq, Repr

/-- The drain formats of R76. -/
inductive OutFmt where
  | fp32 | bf16 | fp16 | bq8 | fx32 | raw128
deriving DecidableEq, Repr

/-- The fields of an MX command but its mode (R76, R189). sel and ld are WSEL and WLD in WS, ASEL and ALD in IS. -/
structure MxCmd where
  mask : Nat
  fp : FmtPair
  qw : Nat
  qa : Nat
  qo : Nat
  wsc : Bool
  asc : Bool
  sel : Bool
  ld : Bool
  ofmt : OutFmt
  pf : Nat
  ots : Nat
  sc : Option Nat
  pa : Nat
  ptw : Nat
  pta : Nat
  psd : Nat
deriving DecidableEq, Repr

/-- The fields of SX.GO (R195): the descriptor register and the override registers. -/
structure SxCmd where
  pd : Nat
  ovs : Option Nat
  ovd : Option Nat
deriving DecidableEq, Repr

/-- Operand b of QX scalar arithmetic (R197): a sign-extended immediate or a scalar register. -/
inductive QxVal where
  | imm (v : BitVec 32)
  | reg (s : Nat)
deriving DecidableEq, Repr

/-- The value field of the QS format (R199): 16 bits, zero-extended, or bits [31:0] of a scalar register. -/
inductive SyncVal where
  | imm (v : BitVec 16)
  | reg (s : Nat)
deriving DecidableEq, Repr

/-- A sync-object reference (R199): RK = 0, 1 and 2. -/
inductive SyncRef where
  | store (die index : Nat)
  | ns (group k : Nat)
  | ptr (pn : Nat)
deriving DecidableEq, Repr

/-- HALF and COND of SKIP and END (R188). -/
inductive Half where
  | all | low | high
deriving DecidableEq, Repr

inductive Cond where
  | always | eqz | nez | ltz | gez | lez | gtz
deriving DecidableEq, Repr

/-- A condition on a scalar register. -/
structure Test where
  sr : Nat
  half : Half
  cond : Cond
deriving DecidableEq, Repr

/-- A LAUNCH message (R29, R31): the addressed unit, the template, the issuing partition and the delivery tally. -/
structure LaunchMsg where
  unit : UnitId
  tmpl : Nat
  part : Nat
  tally : Nat
deriving DecidableEq, Repr

/-- A PATCH message (R29). -/
structure PatchMsg where
  unit : UnitId
  pn : Nat
  val : Word
deriving DecidableEq, Repr

/-- What the command port carries (R29). -/
inductive PortMsg where
  | launch (m : LaunchMsg)
  | patch (m : PatchMsg)
  | abort (unit : UnitId)
  | quiesce (unit : UnitId)
deriving DecidableEq, Repr

/-- A message with its delivery tally, if it carries one, and its sequence number (R317). -/
structure HubMsg where
  tally : Option Nat
  seq : Nat
  body : PortMsg
deriving DecidableEq, Repr

/-- What a port's training finds in one of its states (R293): the lanes with a signal, the lanes that lock (bit i for
Li), whether the codewords align, what IDENT reads, and the worst raw latency in units of 0.125 ns. -/
inductive TrainEvent where
  | signal (lanes : Nat)
  | locked (lanes : Nat)
  | aligned (ok : Bool)
  | ident (nbmod nbport topo : Nat)
  | measured (rawlat : Nat)
deriving DecidableEq, Repr

/-- The edge with which a tick begins (R313, R318): is it one of CADENCE, not of the internal reference, and the values
sampled at it on the Ridge ports A and B. -/
structure Edge where
  cadence : Bool
  a : BitVec 4
  b : BitVec 4
deriving DecidableEq, Repr

/-- Why an active lane is at fault (R294). -/
inductive LinkFaultWhy where
  | drift | uncorrectable | seqWord | lossOfSignal
deriving DecidableEq, Repr

/-- One slot booking of a binary (R290): logical port, slot, kind, source port and partition. -/
structure Booking where
  port : Nat
  slot : Nat
  kind : Nat
  srcp : Nat
  part : Nat
deriving DecidableEq, Repr

/-- What a region's monitors report at a frame's end (R330, R335). -/
structure RegionReport where
  tj : Nat
  dmax : Nat
  agem : Nat
deriving DecidableEq, Repr

/-- A fault as its detector raises it (R377): class, unit, the mask of partitions that the detector names, and the capture:
of a core fault KIND in [3:0], POS in [6:4], TMPL in [15:8] and TAG in [31:16] (R379), of a memory fault the line, of a link
fault the in-package link. -/
structure FaultEvent where
  cls : Nat
  unit : UnitId
  parts : Nat
  capture : Option Word
deriving DecidableEq, Repr

/-- A request descriptor as fetched from host memory (R349). -/
structure ReqDesc where
  reqid : Word
  handle : Word
  opw : Word
  inaddr : Word
  resaddr : Word
  inlen : Nat
  dlrel : Nat
  key : BitVec 128
deriving DecidableEq, Repr

/-- What the template section of a binary declares for a launch-table entry's batches (R368, R436): NCMT, the input and
result sizes, the global addresses of the input and result position of each slot of each buffer (slot j of buffer b at
b * NSLOT + j), the null input, result and state slot, and the state area: its global address, the size of a state entry
and the initial state. -/
structure BatchDecl where
  ncmt : Nat
  inSize : Nat
  resSize : Nat
  inLoc : List Word
  resLoc : List Word
  nullIn : Word
  nullRes : Word
  nullSlot : Nat
  stBase : Word
  stSize : Nat
  init : List (BitVec 8)
deriving DecidableEq, Repr

/-- What another module tells of its versions (R432): its number, its starter's VERSION and the VER of its management cores. -/
structure ModuleVersions where
  module : Nat
  starter : Word
  mcs : List Word
deriving DecidableEq, Repr

/-- What firmware has in hand besides the module's own state when it forms a key record (R432): the binary as loaded, the
configuration digest of its header (R227), and what the other modules of the group tell. -/
structure KeyInput where
  binary : List (BitVec 8)
  conf : List (BitVec 8)
  peers : List ModuleVersions
deriving DecidableEq, Repr

/-- What firmware loads into a core's scratchpad from DRAM (R393): len bytes from a global address to a scratchpad address. -/
structure Reload where
  src : Word
  dst : Nat
  len : Nat
deriving DecidableEq, Repr

/-- Who writes a register: the host through PF BAR0, PF BAR2 or BAR0 of a partition's VF, or firmware (R12, R342, R344). -/
inductive Writer where
  | host | firmware | bar2
  | vf (p : Nat)
deriving DecidableEq, Repr

/-- One access through an aperture (R345): physical function or a partition's virtual function, the aperture, the
byte within it, and the bytes written or the number of bytes read. -/
structure ApertureReq where
  vf : Option Nat
  index : Nat
  offset : Nat
  write : Option (List (BitVec 8))
  len : Nat
deriving DecidableEq, Repr

/-- The commands: one constructor for each row of spec/opcode_table.json, in its order. -/
inductive Instr where
  /-- LAUNCH (R174). -/
  | launch (u : CoreId) (m : LaunchMsg)
  /-- PATCH (R29). -/
  | patch (u : CoreId) (m : PatchMsg)
  /-- ABORT (R202). -/
  | abort (u : CoreId) (unit : UnitId)
  /-- QUIESCE (R177). -/
  | quiesce (u : CoreId) (unit : UnitId)
  /-- MESSAGE_DELIVERY (R317). -/
  | messageDelivery (m : Option HubMsg)
  /-- BUNDLE_ISSUE (R169). -/
  | bundleIssue (u : CoreId)
  /-- PROOF_POINT_RESUME (R218). -/
  | proofPointResume (u : CoreId)
  /-- MMA_OS (R77). -/
  | mmaOs (u : CoreId) (c : MxCmd)
  /-- MMA_WS (R77). -/
  | mmaWs (u : CoreId) (c : MxCmd)
  /-- MMA_IS (R77). -/
  | mmaIs (u : CoreId) (c : MxCmd)
  /-- MX_DRAIN (R92). -/
  | mxDrain (u : CoreId)
  /-- MOV (R113). -/
  | mov (u : CoreId) (c : VxCmd)
  /-- ADD (R117). -/
  | add (u : CoreId) (c : VxCmd)
  /-- SUB (R117). -/
  | sub (u : CoreId) (c : VxCmd)
  /-- MUL (R117). -/
  | mul (u : CoreId) (c : VxCmd)
  /-- MULH (R119). -/
  | mulh (u : CoreId) (c : VxCmd)
  /-- ADDS (R119). -/
  | adds (u : CoreId) (c : VxCmd)
  /-- SUBS (R119). -/
  | subs (u : CoreId) (c : VxCmd)
  /-- FMA_VS (R117). -/
  | fmaVs (u : CoreId) (c : VxCmd)
  /-- FMA_SV (R117). -/
  | fmaSv (u : CoreId) (c : VxCmd)
  /-- FMA_VVD (R117). -/
  | fmaVvd (u : CoreId) (c : VxCmd)
  /-- MIN (R117). -/
  | min (u : CoreId) (c : VxCmd)
  /-- MAX (R117). -/
  | max (u : CoreId) (c : VxCmd)
  /-- ABS (R117). -/
  | abs (u : CoreId) (c : VxCmd)
  /-- NEG (R117). -/
  | neg (u : CoreId) (c : VxCmd)
  /-- CMP_EQ (R118). -/
  | cmpEq (u : CoreId) (c : VxCmd)
  /-- CMP_NE (R118). -/
  | cmpNe (u : CoreId) (c : VxCmd)
  /-- CMP_LT (R118). -/
  | cmpLt (u : CoreId) (c : VxCmd)
  /-- CMP_LE (R118). -/
  | cmpLe (u : CoreId) (c : VxCmd)
  /-- CMP_GT (R118). -/
  | cmpGt (u : CoreId) (c : VxCmd)
  /-- CMP_GE (R118). -/
  | cmpGe (u : CoreId) (c : VxCmd)
  /-- CMP_NLT (R118). -/
  | cmpNlt (u : CoreId) (c : VxCmd)
  /-- CMP_NLE (R118). -/
  | cmpNle (u : CoreId) (c : VxCmd)
  /-- CMP_NGT (R118). -/
  | cmpNgt (u : CoreId) (c : VxCmd)
  /-- CMP_NGE (R118). -/
  | cmpNge (u : CoreId) (c : VxCmd)
  /-- SEL (R118). -/
  | sel (u : CoreId) (c : VxCmd)
  /-- AND (R124). -/
  | and (u : CoreId) (c : VxCmd)
  /-- OR (R124). -/
  | or (u : CoreId) (c : VxCmd)
  /-- XOR (R124). -/
  | xor (u : CoreId) (c : VxCmd)
  /-- ANDN (R124). -/
  | andn (u : CoreId) (c : VxCmd)
  /-- SHL (R119). -/
  | shl (u : CoreId) (c : VxCmd)
  /-- SHR (R119). -/
  | shr (u : CoreId) (c : VxCmd)
  /-- SRA (R119). -/
  | sra (u : CoreId) (c : VxCmd)
  /-- CVT (R120). -/
  | cvt (u : CoreId) (c : VxCmd)
  /-- EXP2 (R123). -/
  | exp2 (u : CoreId) (c : VxCmd)
  /-- LOG2 (R123). -/
  | log2 (u : CoreId) (c : VxCmd)
  /-- RCP (R122). -/
  | rcp (u : CoreId) (c : VxCmd)
  /-- RSQRT (R122). -/
  | rsqrt (u : CoreId) (c : VxCmd)
  /-- TANH (R123). -/
  | tanh (u : CoreId) (c : VxCmd)
  /-- SIGMOID (R123). -/
  | sigmoid (u : CoreId) (c : VxCmd)
  /-- SHUF_XOR (R125). -/
  | shufXor (u : CoreId) (c : VxCmd)
  /-- SHUF_ROT (R125). -/
  | shufRot (u : CoreId) (c : VxCmd)
  /-- SHUF_BC (R125). -/
  | shufBc (u : CoreId) (c : VxCmd)
  /-- PERM (R126). -/
  | perm (u : CoreId) (c : VxCmd)
  /-- SRED (R128). -/
  | sred (u : CoreId) (c : VxCmd)
  /-- UNPACK (R129). -/
  | unpack (u : CoreId) (c : VxCmd)
  /-- PACK_BQ (R130). -/
  | packBq (u : CoreId) (c : VxCmd)
  /-- QPACK (R131). -/
  | qpack (u : CoreId) (c : VxCmd)
  /-- CVTR (R136). -/
  | cvtr (u : CoreId) (c : VxCmd)
  /-- VX_BEAT_WRITE (R110). -/
  | vxBeatWrite (u : CoreId)
  /-- DELAYED_REGISTER_WRITE (R200). -/
  | delayedRegisterWrite (u : CoreId)
  /-- SX_GO (R196). -/
  | sxGo (u : CoreId) (c : SxCmd)
  /-- SX_OPERATION_EMIT (R241). -/
  | sxOperationEmit (u : CoreId)
  /-- TRANSFER_DATA_ARRIVAL (R243). -/
  | transferDataArrival (id : Nat)
  /-- TRANSFER_SIGNAL (R271). -/
  | transferSignal (id : Nat)
  /-- TAG_GRANT (R256). -/
  | tagGrant (die : Nat)
  /-- TAG_RETURN (R255). -/
  | tagReturn (id : Nat)
  /-- SLI (R198). -/
  | sli (u : CoreId) (sd : Nat) (imm : BitVec 32)
  /-- SLIH (R198). -/
  | slih (u : CoreId) (sd : Nat) (imm : BitVec 32)
  /-- SMOV (R198). -/
  | smov (u : CoreId) (sd sa : Nat)
  /-- SGETP (R198). -/
  | sgetp (u : CoreId) (sd pn : Nat)
  /-- SADD (R198). -/
  | sadd (u : CoreId) (sd sa : Nat) (b : QxVal)
  /-- SSUB (R198). -/
  | ssub (u : CoreId) (sd sa : Nat) (b : QxVal)
  /-- SMUL (R198). -/
  | smul (u : CoreId) (sd sa : Nat) (b : QxVal)
  /-- SMIN (R198). -/
  | smin (u : CoreId) (sd sa : Nat) (b : QxVal)
  /-- SMAX (R198). -/
  | smax (u : CoreId) (sd sa : Nat) (b : QxVal)
  /-- SAND (R198). -/
  | sand (u : CoreId) (sd sa : Nat) (b : QxVal)
  /-- SOR (R198). -/
  | sor (u : CoreId) (sd sa : Nat) (b : QxVal)
  /-- SXOR (R198). -/
  | sxor (u : CoreId) (sd sa : Nat) (b : QxVal)
  /-- SSHL (R198). -/
  | sshl (u : CoreId) (sd sa : Nat) (b : QxVal)
  /-- SSHR (R198). -/
  | sshr (u : CoreId) (sd sa : Nat) (b : QxVal)
  /-- SSRA (R198). -/
  | ssra (u : CoreId) (sd sa : Nat) (b : QxVal)
  /-- SEXT (R198). -/
  | sext (u : CoreId) (sd sa : Nat) (imm : BitVec 32)
  /-- SLD (R198). -/
  | sld (u : CoreId) (sd sa : Nat) (imm : BitVec 32)
  /-- SST (R198). -/
  | sst (u : CoreId) (sa sb : Nat) (imm : BitVec 32)
  /-- CSRR (R198). -/
  | csrr (u : CoreId) (sd : Nat) (imm : BitVec 32)
  /-- CSRW (R198). -/
  | csrw (u : CoreId) (sb : Nat) (imm : BitVec 32)
  /-- QBIND (R151). -/
  | qbind (u : CoreId) (qn pm : Nat)
  /-- QUNBIND (R198). -/
  | qunbind (u : CoreId) (qn : Nat)
  /-- SIGNAL (R268). -/
  | signal (u : CoreId) (r : SyncRef) (v : SyncVal)
  /-- WAIT (R269). -/
  | wait (u : CoreId) (r : SyncRef) (v : SyncVal)
  /-- RESET (R268). -/
  | reset (u : CoreId) (r : SyncRef)
  /-- BARRIER_D (R275). -/
  | barrierD (u : CoreId) (group : Nat)
  /-- SKIP (R184). -/
  | skip (u : CoreId) (t : Test) (n : Nat)
  /-- END (R175). -/
  | endT (u : CoreId) (t : Test) (nt nf : Nat)
  /-- SYNC_WAIT_READ_REPLY (R269). -/
  | syncWaitReadReply (u : CoreId) (value : BitVec 32)
  /-- SYNC_APPLY (R267). -/
  | syncApply (die index : Nat)
  /-- CHANNEL_ELEMENT_ARRIVAL (R156). -/
  | channelElementArrival (die : Nat)
  /-- CREDIT_RETURN (R157). -/
  | creditReturn (die : Nat)
  /-- COMBINING_TAKE (R163). -/
  | combiningTake (die cluster : Nat)
  /-- COMBINING_DELIVERY (R164). -/
  | combiningDelivery (die cluster : Nat)
  /-- EXT_U_ACCESS (R146). -/
  | extUAccess (u : CoreId)
  /-- DRAM_SLOT (R250). -/
  | dramSlot (m : Nat)
  /-- REFRESH_REGIME_SWITCH (R252). -/
  | refreshRegimeSwitch (m temp : Nat)
  /-- SLOT_TABLE_LOAD (R248). -/
  | slotTableLoad (m : Nat) (v0 v1 : List (BitVec 8))
  /-- CODEWORD_RECEIVE (R282). -/
  | codewordReceive (p lane : Nat) (syms : List (BitVec 10))
  /-- FLIT_SLOT_SEND (R287). -/
  | flitSlotSend (r : Nat)
  /-- FLIT_FORWARD (R288). -/
  | flitForward (q : Nat)
  /-- FLIT_EJECT (R300). -/
  | flitEject (q : Nat)
  /-- FLIT_AGE_DROP (R387). -/
  | flitAgeDrop
  /-- ACK_FLIT_SEND (R284). -/
  | ackFlitSend (j : Nat)
  /-- TOKEN_REFILL (R298). -/
  | tokenRefill
  /-- PORT_TRAINING (R293). -/
  | portTraining (p : Nat) (ev : TrainEvent)
  /-- RETRAIN (R305). -/
  | retrain (p : Nat)
  /-- LINK_FAULT (R294). -/
  | linkFault (p : Nat) (why : LinkFaultWhy) (far : Nat)
  /-- FABRIC_COMMIT_ARM (R291). -/
  | fabricCommitArm
  /-- FABRIC_COMMIT (R291). -/
  | fabricCommit
  /-- SLOT_BOOKING_MERGE (R290). -/
  | slotBookingMerge (roles : Option Nat) (l : List Booking)
  /-- HEARTBEAT (R378). -/
  | heartbeat
  /-- HEARTBEAT_LOSS (R378). -/
  | heartbeatLoss (j : Nat)
  /-- TALLY_TICK (R313). -/
  | tallyTick (e : Edge)
  /-- CADENCE_LOSS (R311). -/
  | cadenceLoss
  /-- WALK_START (R322). -/
  | walkStart
  /-- WALK_SLOT (R323). -/
  | walkSlot (slot : Nat) (vals : List (BitVec 4))
  /-- RIDGE_MARKER_CHECK (R326). -/
  | ridgeMarkerCheck (p0 p1 : BitVec 4)
  /-- TIMEKEEPER_TAKEOVER (R321). -/
  | timekeeperTakeover
  /-- RIDGE_ABORT (R327). -/
  | ridgeAbort (phases : List (BitVec 4))
  /-- RIDGE_BARRIER (R328). -/
  | ridgeBarrier (phases : List (BitVec 4))
  /-- REGION_VOTE_UPDATE (R330). -/
  | regionVoteUpdate (rs : List RegionReport)
  /-- FREQUENCY_ARBITRATION (R331). -/
  | frequencyArbitration (r0 r1 : List Bool)
  /-- FREQUENCY_CHANGE (R332). -/
  | frequencyChange
  /-- RIDGE_DEPTH_SAMPLE (R337). -/
  | ridgeDepthSample (p24 p25 : BitVec 4)
  /-- RIDGE_HOST_FLAGS (R329). -/
  | ridgeHostFlags (p26 p27 : BitVec 4)
  /-- DEPTH_COMMIT_ARM (R337). -/
  | depthCommitArm
  /-- DEPTH_COMMIT (R337). -/
  | depthCommit
  /-- DROOP_FAULT (R333). -/
  | droopFault (r : Nat)
  /-- THERMAL_TRIP (R334). -/
  | thermalTrip (r : Nat)
  /-- ALIGNMENT_REGAIN (R338). -/
  | alignmentRegain (shift : Nat) (phase1 : List (BitVec 4))
  /-- DCY_WRITE (R316). -/
  | dcyWrite (v : BitVec 64)
  /-- POWER_CAP_UPDATE (R458). -/
  | powerCapUpdate (pin vin : Nat) (brk : Bool)
  /-- DOORBELL (R352). -/
  | doorbell (p c : Nat) (pi : BitVec 32)
  /-- INGEST_FETCH (R353). -/
  | ingestFetch (desc : ReqDesc) (input : List (BitVec 8))
  /-- INGEST_REFILL (R353). -/
  | ingestRefill
  /-- NOP (R350). -/
  | nop (p c : Nat)
  /-- OPEN (R350). -/
  | openS (p c : Nat)
  /-- APPEND (R350). -/
  | append (p c : Nat)
  /-- CLOSE (R362). -/
  | close (p c : Nat)
  /-- ROLL (R350). -/
  | roll (p c : Nat)
  /-- REQUEST_ACCEPT (R354). -/
  | requestAccept (p c : Nat)
  /-- RECORD_RETIRE (R362). -/
  | recordRetire (i : Nat)
  /-- RESULT_WRITE (R356). -/
  | resultWrite (p : Nat)
  /-- RING_ENABLE_WRITE (R348). -/
  | ringEnableWrite (p ring : Nat) (v : BitVec 64)
  /-- FLR_VF (R375). -/
  | flrVf (p : Nat)
  /-- FLR_PF (R375). -/
  | flrPf
  /-- PERST_N (R460). -/
  | perstN (level : Bool)
  /-- GATEWAY_TAKEOVER (R376). -/
  | gatewayTakeover
  /-- LAUNCH_TABLE_FIRE (R365). -/
  | launchTableFire (e : Nat)
  /-- BATCH_FREEZE (R369). -/
  | batchFreeze (e : Nat)
  /-- COMMIT (R370). -/
  | commit (e : Nat)
  /-- ENGINE_TIME_CHARGE (R371). -/
  | engineTimeCharge (u : CoreId)
  /-- SHARE_PERIOD (R372). -/
  | sharePeriod
  /-- FAULT_DETECT (R382). -/
  | faultDetect (f : FaultEvent)
  /-- FAULT_RECHECK (R379). -/
  | faultRecheck (d k : Nat) (again : Bool) (load : List Reload)
  /-- ABORT_FLIT (R382). -/
  | abortFlit (body : List (BitVec 8))
  /-- SYNC_WATCHDOG (R381). -/
  | syncWatchdog (u : CoreId)
  /-- PROGRESS_WATCHDOG (R381). -/
  | progressWatchdog (u : CoreId)
  /-- GENERATION_CHANGE (R385). -/
  | generationChange
  /-- REPLAY (R390). -/
  | replay (e : Nat)
  /-- SPARE_SUBSTITUTION (R38). -/
  | spareSubstitution (d k : Nat) (v : BitVec 64) (regs : List (Nat × BitVec 64)) (load : List Reload)
  /-- STANDBY_PROMOTION (R399). -/
  | standbyPromotion
  /-- LOSS_CONFIRMATION (R399). -/
  | lossConfirmation (j : Nat)
  /-- INPUT_POWER_LOSS (R455). -/
  | inputPowerLoss
  /-- VBAT_LOSS (R456). -/
  | vbatLoss
  /-- RESET_N (R454). -/
  | resetN (level : Bool)
  /-- BOOT_SLOT_CHOICE (R407). -/
  | bootSlotChoice
  /-- PENDING_CONFIRMATION (R407). -/
  | pendingConfirmation
  /-- SEQUENCER_STEP (R414). -/
  | sequencerStep (i lost tested spares : Nat)
  /-- MC_WATCHDOG (R422). -/
  | mcWatchdog (i : Nat)
  /-- KICK (R422). -/
  | kick (i : Nat)
  /-- MC_RESTART (R422). -/
  | mcRestart (i : Nat)
  /-- NEGOTIATE (R429). -/
  | negotiate (req : List (BitVec 8))
  /-- KEYLOAD (R411). -/
  | keyload (req : List (BitVec 8))
  /-- STAGE (R427). -/
  | stage (req : List (BitVec 8))
  /-- VERIFY (R427). -/
  | verify (req : List (BitVec 8))
  /-- ACTIVATE (R425). -/
  | activate (req : List (BitVec 8))
  /-- LIVE (R425). -/
  | live (req : List (BitVec 8))
  /-- RESTART (R427). -/
  | restart (req : List (BitVec 8))
  /-- MAILBOX_ABORT (R377). -/
  | mailboxAbort (req : List (BitVec 8))
  /-- RUN (R427). -/
  | run (req : List (BitVec 8))
  /-- MAILBOX_RESET (R427). -/
  | mailboxReset (req : List (BitVec 8))
  /-- MAILBOX_UNKNOWN_CMD (R427). -/
  | mailboxUnknownCmd (req : List (BitVec 8))
  /-- RCV_VERIFY_A (R417). -/
  | rcvVerifyA
  /-- RCV_VERIFY_B (R417). -/
  | rcvVerifyB
  /-- RCV_PEND_A (R417). -/
  | rcvPendA
  /-- RCV_PEND_B (R417). -/
  | rcvPendB
  /-- RCV_COLD_RESET (R417). -/
  | rcvColdReset
  /-- MODULE_ADMISSION (R431). -/
  | moduleAdmission (j : Nat)
  /-- TRAVEL_PUBLISH (R212). -/
  | travelPublish (image : List (BitVec 8)) (hops : List (Nat × Nat × Nat))
  /-- GROUP_SECTION_LOAD (R27). -/
  | groupSectionLoad (image : List (BitVec 8))
  /-- GROUP_DESCRIPTOR_WRITE (R26). -/
  | groupDescriptorWrite (offset : Nat) (v : BitVec 64)
  /-- QUEUE_BINDING_WRITE (R151). -/
  | queueBindingWrite (u : CoreId) (n word : Nat) (v : BitVec 64)
  /-- COMBINING_SLOT_WRITE (R161). -/
  | combiningSlotWrite (d k n word : Nat) (v : BitVec 64)
  /-- WINDOW_WRITE (R263). -/
  | windowWrite (w word : Nat) (v : BitVec 64)
  /-- TAG_PARTITION_WRITE (R256). -/
  | tagPartitionWrite (d p : Nat) (v : BitVec 64)
  /-- SYNC_OBJECT_WRITE (R266). -/
  | syncObjectWrite (d i : Nat) (v : BitVec 32)
  /-- POWER_CAP_WRITE (R458). -/
  | powerCapWrite (v : BitVec 64)
  /-- ZEROISE (R441). -/
  | zeroise (u : CoreId) (v : BitVec 64)
  /-- KEY_RECORD_FORM (R433). -/
  | keyRecordForm (e : Nat) (key : KeyInput) (decl : BatchDecl)
  /-- HEAD_SIGN (R439). -/
  | headSign (p : Nat)
  /-- HEAD_SIGN_COMPLETE (R440). -/
  | headSignComplete
  /-- SNAPSHOT_ARM (R448). -/
  | snapshotArm (v : BitVec 64)
  /-- SNAPSHOT (R448). -/
  | snapshot
  /-- DBG_CHALLENGE (R444). -/
  | dbgChallenge
  /-- DBG_UNLOCK (R444). -/
  | dbgUnlock (token : List (BitVec 8))
  /-- BYPASS (R443). -/
  | bypass
  /-- IDCODE (R443). -/
  | idcode
  /-- SAMPLE_PRELOAD (R443). -/
  | samplePreload (bits : List Bool)
  /-- EXTEST (R443). -/
  | extest
  /-- EXTEST_PULSE (R443). -/
  | extestPulse
  /-- EXTEST_TRAIN (R443). -/
  | extestTrain
  /-- DEBUG_STATE_ACCESS (R443). -/
  | debugStateAccess (offset : Nat) (write : Option (BitVec 64))
  /-- REGISTER_WRITE (R12). -/
  | registerWrite (w : Writer) (offset bytes : Nat) (v : BitVec 64)
  /-- HOST_LINK_UP (R419), with the number of VFs that the host enables (R340, R347). -/
  | hostLinkUp (vfs : Nat)
  /-- HOST_LINK_DOWN (R419). -/
  | hostLinkDown
  /-- MSIX_MTIM_EXPIRY (R348). -/
  | msixMtimExpiry (p : Nat)
  /-- APERTURE_ACCESS (R345). -/
  | apertureAccess (r : ApertureReq)
  /-- RECOVERY_BAR2_ACCESS (R417). -/
  | recoveryBar2Access (offset : Nat) (write : Option (List (BitVec 8))) (len : Nat)
  /-- PARTITION_DEFINE (R437). -/
  | partitionDefine (p : Nat) (v : BitVec 64)
  /-- TRST_N (R461). -/
  | trstN (level : Bool)
deriving DecidableEq, Repr

end Sys2Proof
end

