-- ==== Sys2Proof/Machine/State.lean ====
section
/-! DEFINITION. The state of one module, as plain data, and its reset state. Registers are held as tables of 64-bit
words by control-space offset; what no register shows has fields of its own. -/
namespace Sys2Proof.Machine

/-- Why the machine stops with a fault: the spec gives no command of the module a stop, so there is no reason. A command that
names a unit or an index that does not exist has no effect (log 60). -/
inductive Fault where
deriving DecidableEq, Repr

/-- Why a command has no meaning. -/
inductive Refusal where
  /-- Raised by an arm of exec for a command that is not modelled yet. Safe. -/
  | notModelled (mnemonic : String)
deriving DecidableEq, Repr

/-- A queue element: its valid bit and its bytes (R155). -/
structure Elem where
  valid : Bool
  bytes : List Byte
deriving DecidableEq, Repr

/-- What waits in a core's command FIFO (R29). -/
inductive CoreMsg where
  | launch (m : LaunchMsg) (p63 : Word)
  | patch (m : PatchMsg)
deriving DecidableEq, Repr

/-- The causes of a stall (R216), in the order of the instances of event 0x01 (R447). -/
inductive Cause where
  | chanEmpty | chanCredit | sync | tag | late
deriving DecidableEq, Repr

/-- A queue end that a stalled running cycle waits for: m elements to pop, or m credits (R158). -/
structure QueueNeed where
  q : Nat
  m : Nat
  push : Bool
deriving DecidableEq, Repr

/-- What a WAIT or BARRIER.D waits for (R269, R276): an object of the own die, a read of a remote object in flight
(with the die cycle of its earliest reply) or answered, or a barrier with the die cycle of its release once complete. -/
inductive SyncWait where
  | own (index target : Nat) (admitted : Bool)
  | remote (module die index target : Nat) (admitted : Bool) (due : Nat) (reply : Option Nat)
  | barrier (group : Nat) (release : Option Nat)
deriving DecidableEq, Repr

/-- A stall at a proof point: what the running cycle waits for, whether its bundle is held unissued (R217), and whether it
began in the die cycle in progress, so that the trace does not hold it yet. -/
structure Stall where
  queues : List QueueNeed
  sync : Option SyncWait
  tag : Bool
  emit : Bool
  held : Bool
  since : Nat
  fresh : Bool := true
deriving DecidableEq, Repr

/-- The 46 operations of the VX (R113, R194), grouped where one definition serves several. -/
inductive Pred where
  | eq | ne | lt | le | gt | ge | nlt | nle | ngt | nge
deriving DecidableEq, Repr

inductive VxOp where
  | mov | add | sub | mul | mulh | adds | subs | fmaVs | fmaSv | fmaVvd | min | max | abs | neg
  | cmp (p : Pred)
  | sel | and | or | xor | andn | shl | shr | sra | cvt
  | transc (t : Transc)
  | shufXor | shufRot | shufBc | perm | sred | unpack | packBq | qpack | cvtr
deriving DecidableEq, Repr

/-- The modes of an MX command (R77). -/
inductive MxMode where
  | os | ws | is
deriving DecidableEq, Repr

/-- The scalar operations of two operands (R198). -/
inductive QxAlu where
  | add | sub | mul | min | max | and | or | xor | shl | shr | sra
deriving DecidableEq, Repr

/-- A QX command (R197, R198). -/
inductive QxOp where
  | sli (sd : Nat) (imm : BitVec 32)
  | slih (sd : Nat) (imm : BitVec 32)
  | smov (sd sa : Nat)
  | sgetp (sd pn : Nat)
  | alu (op : QxAlu) (sd sa : Nat) (b : QxVal)
  | sext (sd sa : Nat) (imm : BitVec 32)
  | sld (sd sa : Nat) (imm : BitVec 32)
  | sst (sa sb : Nat) (imm : BitVec 32)
  | csrr (sd : Nat) (imm : BitVec 32)
  | csrw (sb : Nat) (imm : BitVec 32)
  | qbind (qn pm : Nat)
  | qunbind (qn : Nat)
  | signal (r : SyncRef) (v : SyncVal)
  | wait (r : SyncRef) (v : SyncVal)
  | reset (r : SyncRef)
  | barrierD (group : Nat)
  | skip (t : Test) (n : Nat)
  | endT (t : Test) (nt nf : Nat)
deriving DecidableEq, Repr

/-- A bundle (R167, R168): DELTA, TAG, the presence of each command, and the commands that are no reserved
encoding, with the bundle's length in bytes. -/
structure Bundle where
  delta : Nat
  tag : Nat
  pmx : Bool
  pvx : Bool
  psx : Bool
  pqx : Bool
  mx : Option (MxMode × MxCmd)
  vx : Option (VxOp × VxCmd)
  sx : Option SxCmd
  qx : Option QxOp
  size : Nat
deriving DecidableEq, Repr

/-- What one beat of a VX command read in its read cycle (R110): validity, the two sources, the mask, the old
destination, the sidecar entries of each block (UNPACK) and the scalar operand of the FMA forms. -/
structure VxBeat where
  k : Nat
  due : Nat
  valid : Bool
  a : List Byte
  b : List Byte
  mask : List Byte
  old : List Byte
  side : List (List SideEntry)
  s : Word
deriving DecidableEq, Repr

/-- A VX command in progress (R106-R110): its operands as read at issue, the beat to read next, the bytes popped
beyond the last beat read, the beats waiting to be written, the element being filled, and its counts. merge says that it
reads its destination back (R108), tag is its bundle's TAG, noop marks a command that SKIP turned off (R137), unpred one
issued earlier than R111 allows. -/
structure VxRun where
  op : VxOp
  cmd : VxCmd
  n : Nat
  px : Word
  py : Word
  c0 : Nat
  cpb : Nat
  latDep : Nat
  beats : Nat
  addrA : Nat
  addrB : Nat
  addrD : Nat
  next : Nat
  leftA : List (Bool × Byte)
  leftB : List (Bool × Byte)
  leftM : List (Bool × Byte)
  status : List Byte
  statusOk : Bool
  wait : List VxBeat
  fill : List (Bool × Byte)
  half : List Nat
  halfOk : Bool
  halfPoi : Bool
  written : Nat
  sat : Nat
  poi : Nat
  merge : Bool
  tag : Nat
  noop : Bool
  unpred : Bool
deriving DecidableEq, Repr

/-- An accumulator of one lane (R73, R85): its 136 bits, its poison, and the tensor-scale selects first seen
(R97). -/
structure Acc where
  val : Nat := 0
  poison : Bool := false
  tw : Option Nat := none
  ta : Option Nat := none
deriving DecidableEq, Repr

/-- The draining accumulators of one array (R79): the period that drains, whether a step of it was valid, and its 64
lanes. -/
structure Draining where
  period : Nat
  arr : Nat
  valid : Bool
  lanes : List Acc
deriving DecidableEq, Repr

/-- The product of a step on its way to the live accumulators of an array (R79, R81): the running cycle in which it enters,
and what it adds to each lane. -/
structure MxProd where
  due : Nat
  arr : Nat
  lanes : List Acc
deriving DecidableEq, Repr

/-- An MX command in progress (R79): the registers read at issue, the TAG of its bundle, the running cycle after that of
its last step, how many of its periods have begun to drain and their draining accumulators, the next push of its drain,
and the arrays whose lanes it leaves unpredictable. -/
structure MxRun where
  mode : MxMode
  cmd : MxCmd
  steps : Nat
  period : Nat
  len : Nat
  c0 : Nat
  anchor : Int
  tws : Word
  tas : Word
  fx : Nat
  tag : Nat
  done : Nat
  swaps : Nat
  hold : List Draining
  drainP : Nat
  drainK : Nat
  ovf : Nat
  poi : Nat
  noop : Bool
  unpred : List Nat
deriving DecidableEq, Repr

/-- A valid weight or activation register (R78), or an operand as popped: its bytes, the sidecar entries popped with
it, and whether the command that popped it named a sidecar (R90, log 48). -/
structure OpReg where
  bytes : List Byte
  side : List (List SideEntry)
  hasSide : Bool
deriving DecidableEq, Repr

/-- A result that lands later than its command's issue cycle (R200, R182). -/
inductive LateEff where
  | sreg (sd : Nat) (v : Word)
  | load (sd addr : Nat)
  | sred (sd : Nat) (v : Word)
  | csrw (cl : Bool) (off : Nat) (v : Word)
  | store (addr : Nat) (v : Word)
  | bind (n : Nat) (w0 : Word) (w2 : Option Word)
  | scMx (r lo hi : Nat)
  | scVx (r lo hi : Nat)
  | side (q : Nat) (vs : List Nat)
deriving DecidableEq, Repr

structure Late where
  due : Nat
  issue : Nat
  eff : LateEff
deriving DecidableEq, Repr

/-- The writes that one scalar register has received in the running cycle (R182): its value before, the QX write
with its issue cycle, the SRED write, and the SC additions of each half. -/
structure SWrite where
  r : Nat
  old : Word
  qx : Option (Nat × Word)
  sred : Option Word
  lo : Nat
  hi : Nat
deriving DecidableEq, Repr

/-- A scratchpad unit written in the die cycle in progress: the port, the unit and the bytes it replaced. -/
structure UnitWrite where
  port : Nat
  unit : Nat
  olds : List (Nat × Byte)
deriving DecidableEq, Repr

/-- An event to be counted (R447): event, instance, number. -/
structure Ev where
  event : Nat
  inst : Nat
  n : Nat
deriving DecidableEq, Repr

/-- An event of the die cycle in progress, counted at its end (R446): the physical core or the die it belongs to. -/
structure EvNote where
  core : Option Nat
  die : Option Nat
  ev : Ev
deriving DecidableEq, Repr

/-- What leaves a core for the rest of the die in a die cycle: elements pushed into a channel, or credits
returned by a pop, with the binding's peer and queue end. -/
inductive Out where
  | push (q : Nat) (peer : UnitId) (pq : Nat) (elems : List Elem)
  | credit (q : Nat) (peer : UnitId) (pq : Nat) (m : Nat)
deriving DecidableEq, Repr

/-- A flit (R283): its header fields, and its body of 224 bytes. srcu is die, cluster and slot as SRCU packs them. A
direct SIGNAL, whose increment has 32 bits, carries its upper 17 bits in sref, and srk = 3 marks a RESET (log 18). -/
structure Flit where
  type : Nat
  cls : Nat
  vc : Nat
  part : Nat
  group : Nat
  gen : Nat
  srcmod : Nat
  dstmod : Nat
  route : Nat
  hop : Nat
  space : Nat
  off : Nat
  len : Nat
  last : Bool
  sig : Bool
  srcu : Nat
  tag : Nat
  sent : Nat
  srk : Nat
  sref : Nat
  sinc : Nat
  cred : Nat
  rfs : Bool
  body : List Byte
deriving DecidableEq, Repr

/-- Where one side of a transfer starts (R233-R236): a global address, or a queue end of the issuing core. -/
inductive Side where
  | glob (a : Word)
  | queue (q : Nat)
deriving DecidableEq, Repr

/-- An active transfer of an SX (R196, R236-R241): its sides and descriptor words as read at issue, the next element and
byte within it, the row whose index it holds (none: an invalid index, a bubble row), bytes popped from its source beyond
the last operation, how many operations it has emitted and how many have not completed, and whether it has emitted all;
it carries its bake's group, GEN and partition, and the TAG of its bundle. -/
structure Xfer where
  id : Nat
  btag : Nat
  c0 : Nat
  src : Side
  dst : Side
  ctl : Word
  dims : List Word
  elem : Nat
  within : Nat
  row : Option Nat
  index : Option Nat
  rest : List (Bool × Byte)
  emitted : Nat
  open_ : Nat
  done : Bool
  group : Nat
  gen : Nat
  part : Nat
deriving DecidableEq, Repr

/-- For whom an EXT-U access is made (R143, R146): an operation of this module, a flit from another, or firmware and
the host. -/
inductive ExtFor where
  | op (id : Nat)
  | flit (f : Flit)
  | host
deriving DecidableEq, Repr

/-- An access that waits in the EXT-U buffer (R146): a read of len bytes, or the bytes written. -/
structure ExtAcc where
  addr : Nat
  len : Nat
  write : Option (List Byte)
  for_ : ExtFor
deriving DecidableEq, Repr

/-- The sequencer (R169-R178): the bake's state, as CORE.SEQ.STATE codes it, the template, generation and TAG; the
running cycle of kernel cycle 0; the next bundle's address and issue cycle; the bundles that a SKIP still covers; the
bake's group, partition, delivery tally and start; a waiting QUIESCE; an END in its yield point; pre says that another
command has issued the bundle of the running cycle in progress before its BUNDLE_ISSUE (log 7). -/
structure Seq where
  run : Bool := false
  tmpl : Nat := 63
  gen : Nat := 0
  tag : Nat := 0
  k0 : Nat := 0
  addr : Nat := 0
  last : Nat := 0
  skip : Nat := 0
  group : Nat := 0
  part : Nat := 0
  tally : Nat := 0
  start : Nat := 0
  quiesce : Bool := false
  next : Option Nat := none
  pre : Bool := false
deriving DecidableEq, Repr

/-- One physical core. skew is the number of die cycles it has spent stalled, so that its running cycle is now less
skew; mxAt, vxAt, sxAt, qxAt and emAt are the running cycle after that of the last issue of the unit, and of the
last operation emitted. seen marks the arrays with a valid step in the period
that accumulates, form the selects that steps of it have met, prods products on their way; sticky are the W1C bits that
hardware has set, and clog what CSRWs have replaced, in the die cycle in progress (the old word of a CL register, the bits
cleared of a CORE register). vxPrev is the VX command issued last; extGo counts the EXT-U accesses that take place at the end of the die cycle in
progress if their sub-banks are free (R146); kernels are the kernels that have ended, with partition and running cycles
(R371). fid is the core's key and fctr numbers its free values
(log 10). busy, evs, outs and faults are the
notes of one step and stand empty between steps. -/
structure Core where
  regs : Tab Word := []
  mem : Memory := []
  ecc : Tab Nat := []
  fifo : List CoreMsg := []
  seq : Seq := {}
  skew : Nat := 0
  stall : Option Stall := none
  mxAt : Nat := 0
  vxAt : Nat := 0
  sxAt : Nat := 0
  qxAt : Nat := 0
  emAt : Nat := 0
  wreg : List (Option OpReg) := List.replicate 8 none
  areg : List (Option OpReg) := List.replicate 8 none
  wload : List Nat := List.replicate 8 0
  aload : List Nat := List.replicate 8 0
  acc : Tab Acc := []
  seen : Nat := 0
  form : Tab Acc := []
  prods : List MxProd := []
  mxs : List MxRun := []
  sticky : Tab Nat := []
  clog : List (Bool × Nat × Word) := []
  vxs : List VxRun := []
  vxPrev : Option VxRun := none
  late : List Late := []
  slog : List SWrite := []
  wlog : List UnitWrite := []
  busy : List (Nat × Nat) := []
  rd : Tab Nat := []
  wr : Tab Nat := []
  chan : Tab (List Elem) := []
  xfers : List Xfer := []
  gutter : List (Nat × Nat) := []
  extU : List ExtAcc := []
  extGo : Nat := 0
  kernels : List (Nat × Nat) := []
  heldTag : Option Nat := none
  zeroUntil : Nat := 0
  fid : Nat := 0
  fctr : Nat := 0
  evs : List Ev := []
  outs : List Out := []
  faults : List FaultEvent := []
deriving DecidableEq, Repr

/-- A core after reset: idle, template 63, every register invalid, every queue end unbound. -/
def Core.reset : Core := {}

def Core.dflt (key : Nat) : Core := { fid := key }

/-- A channel or combining element in flight (R156): where it was sent from and to, and the die cycle from which it
is available. src is the sending core or combining slot, dst the addressed UnitID and queue end or slot. -/
structure ChanFlight where
  due : Nat
  die : Nat
  srcUnit : UnitId
  srcQ : Nat
  dst : UnitId
  dstQ : Nat
  elem : Elem
  group : Nat
  gen : Nat
deriving DecidableEq, Repr

/-- Credits on their way back (R157): usable from due at queue end q of the core, or at the combining slot q of a
cluster for its destination. -/
structure CreditFlight where
  due : Nat
  die : Nat
  unit : UnitId
  q : Nat
  from_ : UnitId
  fromQ : Nat
  m : Nat
deriving DecidableEq, Repr

/-- A combining slot (R161-R164): lane accumulators, which elements were valid, status, how many elements each
source has given, rounds, the die cycle of completion, the delivery buffer, the delivery credits for each destination
(16 cores, then the target cluster), and the group whose elements it sums. -/
structure Slot where
  acc : List Nat := []
  valid : List Bool := []
  status : Nat := 0
  given : List Nat := List.replicate 28 0
  round : Nat := 0
  complete : Option Nat := none
  out : List Elem := []
  credits : List Nat := List.replicate 17 32
  group : Nat := 0
  gen : Nat := 0
deriving DecidableEq, Repr

def Slot.dflt (_ : Nat) : Slot := {}

/-- A waiting element of a combining source buffer: the slot it is for, the sending queue end or slot, the element and
the group it carries. -/
structure SrcElem where
  slot : Nat
  srcQ : Nat
  elem : Elem
  group : Nat
  gen : Nat
deriving DecidableEq, Repr

/-- A sync object (R264): its value, and the values it held before its latest changes with the die cycle of each
change, newest first; at_ is the die cycle after that of its latest change, with what R267 orders of that cycle: the value
before its RESETs and increments, whether a RESET was among them, and the sum of the increments. -/
structure SyncObj where
  val : Nat := 0
  past : List (Nat × Nat) := []
  at_ : Nat := 0
  base : Nat := 0
  rst : Bool := false
  sum : Nat := 0
deriving DecidableEq, Repr

def SyncObj.dflt (_ : Nat) : SyncObj := {}

/-- What is on its way to a sync-object store (R267, R268, R271). -/
inductive SyncOp where
  | reset
  | inc (v : Nat)
  | barrier (group : Nat)
deriving DecidableEq, Repr

structure SyncMsg where
  due : Nat
  die : Nat
  index : Nat
  op : SyncOp
  part : Nat
  src : Nat
  unit : UnitId
  group : Nat
  gen : Nat
deriving DecidableEq, Repr

/-- How far an operation has come (R240-R245): its source still to be read, at DRAM or at another module; its data in
hand; on its way into DRAM, another module or an EXT-U buffer; or completed, with its tag still out. -/
inductive OpStage where
  | source | dramRead | remoteRead | ready | dramWrite | remoteWrite | ext | complete
deriving DecidableEq, Repr

/-- An operation of a transfer in flight: the issuing core's key and name, what it carries (R386), its transfer, its
emission (die cycle s), class, source, destination and length, the elements it completes at a queue end, whether its row
is a bubble, its data and their validity, its tag, its stage with the die cycle it next acts in, the running cycle of its
effect in the issuing core (R243), the DRAM lines still to be served, and btag, the TAG of its
transfer's bundle. -/
structure SxOp where
  id : Nat
  btag : Nat
  key : Nat
  core : CoreId
  part : Nat
  group : Nat
  gen : Nat
  xfer : Nat
  s : Nat
  tc : Bool
  src : Side
  dst : Side
  len : Nat
  esize : Nat
  ends : Nat
  bubble : Bool
  valid : Bool
  data : List Byte
  tag : Option Nat
  stage : OpStage
  due : Nat
  dueRc : Option Nat
  lines : Nat
  last : Bool
deriving DecidableEq, Repr

/-- A transfer's signal (R245, R271): the object's global address and the increment, whether every destination so far
lies on the issuing die and on one module, whether the last operation has been emitted, and the die cycle of the latest
effect. -/
structure XferSig where
  id : Nat
  core : CoreId
  part : Nat
  group : Nat
  gen : Nat
  addr : Word
  inc : Nat
  tc : Bool
  onDie : Bool
  mods : List Nat
  armed : Bool
  ridden : Bool
  lastEff : Nat
deriving DecidableEq, Repr

/-- The tags of one die (R255): tags in use with the partition of each. -/
abbrev TagPool := List (Nat × Nat)

/-- For whom a DRAM access is made: an operation of this module (with the position of its bytes in the operation), a
read or write of another module's flit (a pending read by its number), or firmware and the host. -/
inductive DramFor where
  | op (id pos : Nat)
  | remote (id pos : Nat)
  | host
deriving DecidableEq, Repr

/-- One 64 B access waiting at a DRAM controller (R242, R250): the die cycle from which it is there, its line, the
bytes of the line that it touches, what it writes (none: a read), and what it carries. -/
structure DramReq where
  ready : Nat
  line : Nat
  off : Nat
  len : Nat
  write : Option (List Byte)
  for_ : DramFor
  group : Nat
  gen : Nat
  part : Nat
deriving DecidableEq, Repr

/-- One DRAM controller (R246-R254): its memory and ECC marks by line (1 correctable, 2 not), a queue for each
partition and the pool (index 16), the slot number served next, a pending regime with its tally, the time since
which the stack has been below EXIT (plus 1), the slot-table entries still in force in place of rewritten ones until slot swapAt,
refreshes done, and corrected lines to be written back in the next pool slots (R254). -/
structure Dram where
  mem : Memory := []
  ecc : Tab Nat := []
  queues : Tab (List DramReq) := []
  slot : Nat := 0
  hotAt : Option (Nat × Bool) := none
  below : Nat := 0
  oldSlots : Tab Nat := []
  swapAt : Nat := 0
  refreshes : Nat := 0
  backs : List Nat := []
deriving DecidableEq, Repr

def Dram.dflt (_ : Nat) : Dram := {}
/-- A flit that originates on this module and waits at the port stage (R287, R300): when it was emitted, and on which
die (the hub counts as none). -/
structure TxFlit where
  sent : Nat
  die : Option Nat
  flit : Flit
deriving DecidableEq, Repr

/-- A read or write of this module that a flit from another asks for, waiting on DRAM (R250, R259): the flit, the data
read so far and the lines still to be served. -/
structure RemoteAcc where
  id : Nat
  flit : Flit
  data : List Byte
  lines : Nat
deriving DecidableEq, Repr

/-- An acknowledgement owed to another module (R284): its entry (die and tag), the die cycle in which it was earned,
and what it carries. -/
structure Ack where
  mod_ : Nat
  entry : Nat
  at_ : Nat
  part : Nat
  group : Nat
  gen : Nat
deriving DecidableEq, Repr

/-- A flit at an input port (R285, R292): its slot number there. -/
structure RxFlit where
  slot : Nat
  flit : Flit
deriving DecidableEq, Repr

/-- A flit to be forwarded (R288): the input port, and for a scheduled one the output port and slot it is bound to. -/
structure FwFlit where
  inp : Nat
  out : Option Nat
  slot : Nat
  flit : Flit
deriving DecidableEq, Repr

/-- The codeword that a port is receiving (R281, R282): its number, the logical lanes decoded so far with their flit
shares, and whether one could not be corrected. -/
structure RxWord where
  c : Nat
  lanes : List (Nat × List Byte)
  lost : Bool
deriving DecidableEq, Repr

/-- A flit sent in a slot of a logical port, over the physical port that carries it. -/
structure SentFlit where
  port : Nat
  phys : Nat
  slot : Nat
  flit : Flit
deriving DecidableEq, Repr

/-- A codeword sent: physical port and lane, its number and its 544 symbols (R281, R282). -/
structure SentWord where
  phys : Nat
  lane : Nat
  c : Nat
  syms : List (BitVec 10)
deriving DecidableEq, Repr

/-- The fabric ports (spec/10), by logical port unless said otherwise: the next slot of each; flits of the codeword in
progress; flits received and to be forwarded; by physical port the codeword in reception, the lanes that locked, and by
9p + lane the number of each lane's next codeword; credits held and owed by 16r + VC; the VC rotation; physical ports
that drop what they receive; the port and lane maps before a commit, which receivers use until slot oldTill; owed
acknowledgements, signals that rode in, SYS and abort flits for firmware; SYS messages not yet acknowledged with the tally of
their last sending, and the number of the next (R299); firmware's accesses to control registers that have come in; writes of
two flits of which one has come (module, core, tag, offset of the other); ports that a commit brings back into service at
oldTill (R294); the reserve ports of the starter's port roles, if it gives any (R226, R303); the next frame whose tokens are
due (R298); and what has left: flits and codewords. -/
structure Fabric where
  next : Tab Nat := []
  word : Tab (List Flit) := []
  rx : Tab (List RxFlit) := []
  fw : List FwFlit := []
  rxWord : Tab (Option RxWord) := []
  lanes : Tab Nat := []
  laneC : Tab Nat := []
  cred : Tab Nat := []
  owed : Tab Nat := []
  turn : Tab Nat := []
  dead : List Nat := []
  oldTill : Nat := 0
  oldPmap : List Nat := []
  oldLmap : List Nat := []
  acks : List Ack := []
  remSigs : List Flit := []
  sysIn : List Flit := []
  sysOut : List (Nat × Flit) := []
  sysSeq : Nat := 0
  ctlIn : List Flit := []
  firsts : List (Nat × Nat × Nat × Nat) := []
  heal : List Nat := []
  roles : Option Nat := none
  frame : Nat := 0
  sent : List SentFlit := []
  wire : List SentWord := []
deriving DecidableEq, Repr

/-- What the module sends to its host over PCIe: an interrupt message of a function's vector (R346), a write of host
memory for a partition or, as none, the PF, a read of host memory, whose bytes come with a later command (R340), the bytes that
a read by the host returns, and a read completed as an Unsupported Request (R345). -/
inductive HostOut where
  | msix (vf : Option Nat) (vector : Nat)
  | write (vf : Option Nat) (addr : Nat) (data : List Byte)
  | read (vf : Option Nat) (addr len : Nat)
  | data (bytes : List Byte)
  | unsupported
deriving DecidableEq, Repr

/-- A message at the hub that waits for its delivery tally (R317): due is the die cycle of its entry, known once that
tally has come. -/
structure HubWait where
  msg : HubMsg
  due : Option Nat
deriving DecidableEq, Repr

/-- A bake that an abort voided (R382, R389): its launch-table entry and SEQ if it has them. -/
structure Voided where
  lte : Option Nat
  seq : Nat
  tmpl : Nat
  tally : Nat
deriving DecidableEq, Repr

/-- An aborted group (R380-R385): its generation and partition at the abort, the abort frame, class, HARD, detecting
module, detection tally and the unit that failed, its voided bakes, the count of consecutive aborts, STOP, and whether its generation has
advanced. It stays until the replay is queued. -/
structure AbortRec where
  group : Nat
  gen : Nat
  part : Nat
  frame : Nat
  cls : Nat
  hard : Bool
  dmod : Nat
  tf : Nat
  unit : UnitId
  bakes : List Voided
  rcnt : Nat
  stop : Bool
  changed : Bool
deriving DecidableEq, Repr

/-- What the module drives in the abort phases of a Ridge frame (R327). -/
structure RidgeAbort where
  frame : Nat
  parts : Nat
  cls : Nat
deriving DecidableEq, Repr

/-- A launch that the hub queued for a launch-table entry (R389): its SEQ, tally and the PATCH values; the key digest
and the DBG flag latched with it (R433, R445). -/
structure LaunchRec where
  seq : Nat
  tally : Nat
  tmpl : Nat
  group : Nat
  part : Nat
  patches : List (Nat × Word)
  rkd : List Word
  dbg : Bool
deriving DecidableEq, Repr

/-- The clocks and the Ridge (spec/11): consecutive frames without a marker and with a mismatch; ticks until the walk
sets the tally to 0; clean frames and warnings' votes by region; frequency results with the tally they apply from; the
armed depth commit; the DCY that the next frame begins with; compute-die clocks stopped; the value of its own that the
module contributes in this phase, what it sampled from ports A and B at the phase's edge 1, and what it drives onto them in
this tick (R319, R320); it has left this frame's contention (R331); its tally has been read from the Ridge since the last
loss of CADENCE (R338); ticks of CADENCE without a break, up to 1 ms; sideband inputs whose new level is not yet accepted, by
pin, with the ticks it must still hold (R339); its own abort bits; regions with a droop fault in this frame, and the step to which such
faults have lowered the vote, until it is in force (R333, R396); input power of past frames, newest first, the cap controller's clean frames, and a written cap that waits for the frame's end. -/
structure Cadence where
  absent : Nat := 0
  mism : Nat := 0
  walkIn : Option Nat := none
  walked : Bool := false
  clean : Tab Nat := []
  freqs : List (Nat × Nat) := []
  depth : Option (Nat × Nat) := none
  dcyNext : Option Nat := none
  stopped : Bool := false
  own : Nat := 0
  seen : Nat × Nat := (0, 0)
  ridgeA : Nat := 0
  ridgeB : Nat := 0
  out : Bool := false
  tallied : Bool := false
  lockRun : Nat := 0
  inputs : List (Nat × Bool × Nat) := []
  aborts : List RidgeAbort := []
  droop : List Nat := []
  lower : Option Nat := none
  pins : List Nat := []
  pclean : Nat := 0
  pcapNext : Option Word := none
deriving DecidableEq, Repr

/-- A stream record (R357, R358). DEADLINE of a record without a pending APPEND is 2^64 - 1. -/
structure StreamRec where
  key : BitVec 128 := 0
  ctl : Word := 0
  slot : Word := 0
  deadline : Word := 0xFFFFFFFFFFFFFFFF
  inloc : Word := 0
  resloc : Word := 0
  audseq : Word := 0
  reqid : Word := 0
  resaddr : Word := 0
  idig : List Byte := List.replicate 48 0
deriving DecidableEq, Repr

def StreamRec.dflt (_ : Nat) : StreamRec := {}

/-- A request descriptor that ingest has fetched (R353), with its input; done holds the status and the handle of its
result once it has been acted on, with true for an APPEND that waits for its bake. -/
structure Fetched where
  part : Nat
  ring : Nat
  desc : ReqDesc
  input : List Byte
  done : Option (Nat × Word × Bool)
deriving DecidableEq, Repr

/-- An accepted APPEND that no bake has committed (R361, R369): its record, what its result needs, its deadline tally,
its place in the order of acceptance, its input, and whether a Function Level Reset has come since (R375). -/
structure PendApp where
  part : Nat
  idx : Nat
  handle : Word
  reqid : Word
  resaddr : Word
  cls : Nat
  lte : Nat
  deadline : Nat
  order : Nat
  input : List Byte
  hostReset : Bool
deriving DecidableEq, Repr

/-- A frozen batch (R369, R370): its entry and SEQ, the module's die cycle of DCY(NEXT) of its launch, the filled slots,
the latched key digest and DBG; and, once its new records have gone to the mirror, the tally of the edge at which all completion
words stood. -/
structure Frozen where
  found : Option Nat := none
  lte : Nat
  seq : Nat
  start : Nat
  slots : List (Nat × PendApp)
  rkd : List Word
  dbg : Bool
deriving DecidableEq, Repr

/-- A result that waits to be written (R355, R356): for a scored one, its data and crumb with the host address of each. -/
structure ResultRec where
  part : Nat
  reqid : Word
  handle : Word
  status : Nat
  late : Bool
  pos : Nat
  audseq : Word
  writes : List (Nat × List Byte)
deriving DecidableEq, Repr

/-- Ingest, batches and results at the gateway (spec/12): stream records, descriptors fetched, the partition next in
rotation for each class of ring, accepted APPENDs in order, records that a CLOSE waits for, what binaries declare for the
launch-table entries, frozen batches, results in commit order, and by partition the result descriptors not yet signalled
with the tally of the first; the die cycle in which the share period in progress began (R372); the number of VFs that the host has
enabled (R340, R347), and the MSI-X tables (function 0 the PF, p + 1 the VF of partition p: 256 words each, two to a vector) with the
vectors that a masked entry holds pending, 128 to a function (R342, R346). -/
structure Gate where
  streams : Tab StreamRec := []
  fetched : List Fetched := []
  turn : List Nat := [0, 0, 0]
  appends : List PendApp := []
  accepted : Nat := 0
  closing : List Nat := []
  decls : Tab (Option BatchDecl) := []
  frozen : List Frozen := []
  results : List ResultRec := []
  unsig : Tab (Nat × Nat) := []
  periodAt : Nat := 0
  vfs : Nat := 0
  msix : Tab Word := []
  pends : List Nat := []
deriving DecidableEq, Repr

/-- A signing that has been started (R439, R440): partition, CSEQ, tally and chain value. -/
structure Signing where
  part : Nat
  cseq : Nat
  tally : Nat
  head : List Byte
deriving DecidableEq, Repr

/-- The instruction that the JTAG port holds (R443). -/
inductive JtagInstr where
  | bypass | idcode | sample | extest | extestPulse | extestTrain | dbgChallenge | dbgUnlock | access
deriving DecidableEq, Repr

/-- Audit and debug (spec/15): signings under way, oldest first, how many have been made and how many challenges drawn;
the other modules known to be unlocked (R445); the JTAG instruction in force, what its last shift brought out, and the boundary
register. -/
structure Audit where
  signs : List Signing := []
  signed : Nat := 0
  drawn : Nat := 0
  peers : Nat := 0
  jtag : JtagInstr := .idcode
  tdo : List Byte := []
  boundary : List Bool := []
deriving DecidableEq, Repr

/-- The NV die, eFuses, key RAM and what the boot and the start-up sequencer have done (spec/14): NV bytes; SHA-384 of
the four authorised keys, revoke bits, image key and blown SVN fuses; the key RAM with VALID; whether a slot has been
chosen; the plaintext body of the image that the management cores run, and its number of sections; slots whose last verify passed; domains released
from reset, whose outputs are released, whose writes are enabled and that have failed, and the next sequencer entry;
the tally from which a trial boot's confirmation counts; a mailbox request that waits for MC0 (R421); tallies of each management core's last KICK and last restart;
cores that are being reloaded, each with the version it will run (R422), and a LIVE update in progress: slot, version and the cores still to
restart (R425); the logical cores that UNITMAP keeps out of every map, by 192d + 16k + l (R409); HVER; the level of RESET_N and of the input power. -/
structure Boot where
  nv : Memory := []
  rooth : List (List Byte) := List.replicate 4 (List.replicate 48 0)
  revoked : Nat := 0
  fuseKey : List Byte := List.replicate 32 0
  svnFuses : Nat := 0
  keyRam : List Byte := List.replicate 32 0
  keyValid : Bool := false
  booted : Bool := false
  body : List Byte := []
  nsec : Nat := 0
  passed : List Nat := []
  released : Nat := 0
  outputs : Nat := 0
  writable : Nat := 0
  miss : Nat := 0
  failed : Nat := 0
  next : Nat := 0
  since : Nat := 0
  mail : Option (List Byte) := none
  loading : List (Nat × Word) := []
  live : Option (Nat × Word × List Nat) := none
  offMap : Nat := 0
  kicks : Tab Nat := []
  restarts : Tab Nat := []
  hver : Word := 0
  resetHigh : Bool := true
  power : Bool := true
deriving DecidableEq, Repr

/-- The module. now counts die cycles since reset and left those that remain in the current tick after this one
(R315), of its tickLen; dcy is CAD.DCY, the number of its first die cycle; regs are the registers outside the CORE blocks by control-space offset, and cores the
physical cores by (12 die + cluster) * 17 + slot. freeCtr numbers the free values (log 10); ticks are the last ticks, newest first: tally, number of die cycles since
reset at their edge, and length; alts are the alternates, plus one, that unscheduled transfers have chosen, by transfer and
module (R296);
halves holds lower halves written (R14) and latched upper halves read; barGroups are the groups that a BARRIER.D has named (R274);
unfit are cores and combining units with a core fault that is not yet repaired (R36, R40, R393);
rewritten are the DRAM lines rewritten once (R394), by stack and line, and pairs counts the failed wire pairs of the
in-package links (R395). -/
structure State where
  pending : List Instr := []
  freeCtr : Nat := 0
  now : Nat := 0
  left : Nat := 0
  tally : Nat := 0
  dcy : Nat := 0
  tickLen : Nat := 64
  ticks : List (Nat × Nat × Nat) := [(0, 0, 64)]
  regs : Tab Word := []
  halves : Tab Word := []
  latched : Tab Word := []
  cores : Tab Core := []
  flights : List ChanFlight := []
  credits : List CreditFlight := []
  slots : Tab Slot := []
  srcBufs : Tab (List SrcElem) := []
  takeAt : Tab Nat := []
  giveAt : Tab Nat := []
  sync : Tab SyncObj := []
  syncMsgs : List SyncMsg := []
  barGroups : List Nat := []
  xferSeq : Nat := 0
  opSeq : Nat := 0
  ops : List SxOp := []
  sigs : List XferSig := []
  tags : Tab TagPool := []
  dram : Tab Dram := []
  remote : List RemoteAcc := []
  remSeq : Nat := 0
  raised : List FaultEvent := []
  evs : List EvNote := []
  tx : List TxFlit := []
  fills : Tab (List (Bool × Byte)) := []
  alts : Tab Nat := []
  rot : Tab Nat := []
  fab : Fabric := {}
  hostOut : List HostOut := []
  hubQ : List HubWait := []
  aborts : List AbortRec := []
  rcnt : Tab (Nat × Nat) := []
  coreFaults : List (Nat × Nat) := []
  rewritten : List (Nat × Nat) := []
  unfit : List UnitId := []
  pairs : Tab Nat := []
  genLog : List (Nat × Nat) := []
  launches : Tab (List LaunchRec) := []
  cad : Cadence := {}
  thermTrip : Bool := false
  gate : Gate := {}
  audit : Audit := {}
  boot : Boot := {}
deriving DecidableEq, Repr

/-- The machine right after reset: every field at its default above; the tick in progress has the 63 further die
cycles of the nominal step (log 1, log 5). -/
def State.reset : State := { left := 63 }

end Sys2Proof.Machine
end

