-- ==== Sys2Proof/Decode.lean ====
section
/-! DEFINITION. The decoders: the opcode table gives no row any bits, so no table word spells a command; the words of a
bundle spell the commands that BUNDLE_ISSUE issues (R167, R168, R188-R199). Reserved codes decode to none (log 8). -/
namespace Sys2Proof
open Machine

/-- The command that a table word spells: the table's rows have no bit fields, so none. -/
def decodeTableWord (_nbits _w : Nat) : Option Instr := none

namespace Machine

/-- The bits [hi:lo] of a command word. -/
def bits (w : Word) (hi lo : Nat) : Nat := fld w hi lo

/-! ### MX (R189, R190) -/

def fmtPairOf : Nat → Option FmtPair
  | 0 => some (.bq1 false false)
  | 1 => some (.bq1 false true)
  | 2 => some (.bq1 true false)
  | 3 => some (.bq1 true true)
  | 4 => some .bq2
  | 5 => some .bq4
  | 6 => some .bq8
  | 7 => some .bq4x8
  | 8 => some .bq8x4
  | 9 => some .bh16
  | _ => none

def outFmtOf : Nat → Option OutFmt
  | 0 => some .fp32
  | 1 => some .bf16
  | 2 => some .fp16
  | 3 => some .bq8
  | 4 => some .fx32
  | 5 => some .raw128
  | _ => none

def mxModeOf : Nat → Option MxMode
  | 1 => some .os
  | 2 => some .ws
  | 3 => some .is
  | _ => none

/-- The SC field: a scalar register, none at 31, reserved between. -/
def scOf (n : Nat) : Option (Option Nat) := if n < 16 then some (some n) else if n = 31 then some none else none

/-- The MX command that a word spells (R189). -/
def mxOfWord (w : Word) : Option (MxMode × MxCmd) :=
  match mxModeOf (bits w 63 62), fmtPairOf (bits w 57 54), outFmtOf (bits w 36 34), scOf (bits w 28 24) with
  | some m, some fp, some o, some sc =>
      let qwf := bits w 53 49
      let qaf := bits w 48 45
      let qof := bits w 44 41
      let asc := bits w 39 39 == 1
      if qwf > 23 || qaf > (if asc then 10 else 11) || qof > (if o = .raw128 then 10 else 11) then none
      else some (m,
        { mask := bits w 61 58, fp := fp, qw := 2 * qwf, qa := 4 * qaf, qo := 4 * qof, wsc := bits w 40 40 == 1,
          asc := asc, sel := bits w 38 38 == 1, ld := bits w 37 37 == 1, ofmt := o, pf := bits w 33 29,
          ots := bits w 30 29, sc := sc, pa := bits w 23 19, ptw := bits w 18 14, pta := bits w 13 9,
          psd := bits w 8 4 })
  | _, _, _, _ => none

/-! ### VX (R192-R194) -/

def vxTypeOf : Nat → Option VxType
  | 0 => some .fp32
  | 1 => some .fp16
  | 2 => some .bf16
  | 3 => some .int32
  | 4 => some .int16
  | 5 => some .int8
  | 6 => some .fx32
  | 7 => some .fx64
  | 8 => some .raw128
  | 9 => some .bq1
  | 10 => some .bq2
  | 11 => some .bq4
  | 12 => some .bq8
  | _ => none

def vxSrcOf (n : Nat) : Option VxSrc :=
  if n < 0x30 then some (.q n)
  else if n < 0x40 then none
  else if n < 0x80 then some (.addr (n - 0x40))
  else if n < 0xC0 then some (.rep (n - 0x80))
  else if n < 0xD0 then some (.bc (n - 0xC0))
  else if n = 0xFF then some .none
  else none

def vxDstOf (n : Nat) : Option VxDst :=
  if n < 0x30 then some (.q n)
  else if n = 0x3F then some .none
  else if n < 0x40 then none
  else some (.addr (n - 0x40))

/-- The MQ field: a queue end, none at 63, reserved between. -/
def mqOf (n : Nat) : Option (Option Nat) := if n < 48 then some (some n) else if n = 63 then some none else none

def rmOf : Nat → Rm
  | 0 => .rne
  | 1 => .rz
  | 2 => .rd
  | _ => .ru

/-- The formats of bits [15:0] (R192). -/
inductive VxFmt where
  | a | c | m
deriving DecidableEq, Repr

/-- The opcodes (R194). -/
def vxOpOf : Nat → Option (VxOp × VxFmt)
  | 0x01 => some (.mov, .a)
  | 0x02 => some (.add, .a)
  | 0x03 => some (.sub, .a)
  | 0x04 => some (.mul, .a)
  | 0x05 => some (.mulh, .a)
  | 0x06 => some (.adds, .a)
  | 0x07 => some (.subs, .a)
  | 0x08 => some (.fmaVs, .a)
  | 0x09 => some (.fmaSv, .a)
  | 0x0A => some (.fmaVvd, .a)
  | 0x0B => some (.min, .a)
  | 0x0C => some (.max, .a)
  | 0x0D => some (.abs, .a)
  | 0x0E => some (.neg, .a)
  | 0x0F => some (.sel, .a)
  | 0x10 => some (.and, .a)
  | 0x11 => some (.or, .a)
  | 0x12 => some (.xor, .a)
  | 0x13 => some (.andn, .a)
  | 0x14 => some (.shl, .a)
  | 0x15 => some (.shr, .a)
  | 0x16 => some (.sra, .a)
  | 0x18 => some (.cmp .eq, .a)
  | 0x19 => some (.cmp .ne, .a)
  | 0x1A => some (.cmp .lt, .a)
  | 0x1B => some (.cmp .le, .a)
  | 0x1C => some (.cmp .gt, .a)
  | 0x1D => some (.cmp .ge, .a)
  | 0x1E => some (.cmp .nlt, .a)
  | 0x1F => some (.cmp .nle, .a)
  | 0x20 => some (.cmp .ngt, .a)
  | 0x21 => some (.cmp .nge, .a)
  | 0x28 => some (.transc .exp2, .a)
  | 0x29 => some (.transc .log2, .a)
  | 0x2A => some (.transc .rcp, .a)
  | 0x2B => some (.transc .rsqrt, .a)
  | 0x2C => some (.transc .tanh, .a)
  | 0x2D => some (.transc .sigmoid, .a)
  | 0x30 => some (.cvt, .c)
  | 0x31 => some (.unpack, .c)
  | 0x32 => some (.packBq, .c)
  | 0x33 => some (.cvtr, .c)
  | 0x38 => some (.shufXor, .m)
  | 0x39 => some (.shufRot, .m)
  | 0x3A => some (.shufBc, .m)
  | 0x3B => some (.perm, .m)
  | 0x3C => some (.sred, .m)
  | 0x3D => some (.qpack, .m)
  | _ => none

/-- Is MQ coded in bits [15:10] for the opcode (R192)? -/
def vxHasMq (op : VxOp) : Bool :=
  match op with
  | .cvtr => false | .qpack => false | .sred => false | .unpack => false | .packBq => false
  | _ => true

/-- The VX command that a word spells (R192). In FMA.VS and FMA.SV the PX field carries IMM. -/
def vxOfWord (w : Word) : Option (VxOp × VxCmd) :=
  match vxOpOf (bits w 63 58), vxTypeOf (bits w 57 54), vxSrcOf (bits w 53 46), vxSrcOf (bits w 45 38),
      vxDstOf (bits w 37 31), scOf (bits w 20 16) with
  | some (op, f), some ty, some sa, some sb, some dst, some sc =>
      match (if vxHasMq op then mqOf (bits w 15 10) else some none),
          (if f = .c then vxTypeOf (bits w 8 5) else some ty) with
      | some mq, some dty =>
          let fma := op == .fmaVs || op == .fmaSv
          let imm := match f with
            | .a => if fma then bits w 24 21 else (match op with | .cmp _ => bits w 1 0 | _ => 0)
            | .c => 0
            | .m => bits w 8 2
          some (op,
            { ty := ty, sa := sa, sb := sb, dst := dst, pl := bits w 30 26, px := if fma then 0 else bits w 25 21,
              sc := sc, mq := mq, mz := bits w 9 9 == 1, shb := if f = .a then bits w 8 2 else 0, imm := imm,
              dty := dty, rm := rmOf (bits w 4 3), py := bits w 14 10 })
      | _, _ => none
  | _, _, _, _, _, _ => none

/-! ### SX (R195) -/

/-- The SX command that a word spells. -/
def sxOfWord (w : Word) : Option SxCmd :=
  if bits w 63 58 = 1 then
    some { pd := bits w 57 52, ovs := if bits w 51 51 = 1 then some (bits w 50 45) else none,
           ovd := if bits w 44 44 = 1 then some (bits w 43 38) else none }
  else none

/-! ### QX (R188, R197-R199) -/

def condOf : Nat → Option Cond
  | 0 => some .always
  | 1 => some .eqz
  | 2 => some .nez
  | 3 => some .ltz
  | 4 => some .gez
  | 5 => some .lez
  | 6 => some .gtz
  | _ => none

def halfOf : Nat → Option Half
  | 0 => some .all
  | 1 => some .low
  | 2 => some .high
  | _ => none

/-- A reference: its kind RK and the 27 bits of REF (R199, R237). -/
def refOf (rk ref : Nat) : Option SyncRef :=
  match rk with
  | 0 => some (.store (bitsOf ref 26 25) (bitsOf ref 24 10))
  | 1 => some (.ns (bitsOf ref 26 15) (bitsOf ref 14 0))
  | 2 => some (.ptr (bitsOf ref 26 21))
  | _ => none

def aluOf : Nat → Option QxAlu
  | 0x08 => some .add
  | 0x09 => some .sub
  | 0x0A => some .mul
  | 0x0B => some .min
  | 0x0C => some .max
  | 0x0D => some .and
  | 0x0E => some .or
  | 0x0F => some .xor
  | 0x10 => some .shl
  | 0x11 => some .shr
  | 0x12 => some .sra
  | _ => none

/-- The test of a QC word. -/
def testOfWord (w : Word) : Option Test :=
  match halfOf (bits w 48 47), condOf (bits w 51 49) with
  | some h, some k => some ⟨bits w 55 52, h, k⟩
  | _, _ => none

/-- The QX command that a word spells (R197, R198). -/
def qxOfWord (w : Word) : Option QxOp :=
  let op := bits w 63 56
  let sd := bits w 55 52
  let sa := bits w 51 48
  let sb := bits w 47 44
  let imm := BitVec.ofNat 32 (bits w 31 0)
  let b : QxVal := if bits w 43 43 = 1 then .imm imm else .reg sb
  let ref := refOf (bits w 55 54) (bits w 53 27)
  let val : SyncVal := if bits w 26 26 = 1 then .reg (bits w 25 22) else .imm (BitVec.ofNat 16 (bits w 15 0))
  match op with
  | 0x01 => some (.sli sd imm)
  | 0x02 => some (.slih sd imm)
  | 0x03 => some (.smov sd sa)
  | 0x04 => some (.sgetp sd (bits w 51 46))
  | 0x13 => some (.sext sd sa imm)
  | 0x18 => some (.sld sd sa imm)
  | 0x19 => some (.sst sa sb imm)
  | 0x1A => some (.csrr sd imm)
  | 0x1B => some (.csrw sb imm)
  | 0x20 => if bits w 55 50 < 48 then some (.qbind (bits w 55 50) (bits w 49 44)) else none
  | 0x21 => if bits w 55 50 < 48 then some (.qunbind (bits w 55 50)) else none
  | 0x28 => ref.map (fun r => .signal r val)
  | 0x29 => ref.map (fun r => .wait r val)
  | 0x2A => ref.map (fun r => .reset r)
  | 0x2B => match ref with
      | some (.ns g 0) => some (.barrierD g)
      | _ => none
  | 0x30 => (testOfWord w).map (fun t => .skip t (bits w 46 39))
  | 0x38 => (testOfWord w).map (fun t => .endT t (bits w 46 41) (bits w 40 35))
  | _ => (aluOf op).map (fun o => .alu o sd sa b)

/-! ### Bundles (R167, R168) -/

/-- The bundle whose words start the list: the header, then a command word for each presence bit. -/
def bundleOf (ws : List Word) : Bundle :=
  let h := ws.getD 0 0
  let pmx := bits h 31 31 == 1
  let pvx := bits h 30 30 == 1
  let psx := bits h 29 29 == 1
  let pqx := bits h 28 28 == 1
  let at_ (n : Nat) : Word := ws.getD n 0
  let i1 := 1 + pmx.toNat
  let i2 := i1 + pvx.toNat
  let i3 := i2 + psx.toNat
  { delta := bits h 63 48, tag := bits h 47 32, pmx := pmx, pvx := pvx, psx := psx, pqx := pqx,
    mx := if pmx then mxOfWord (at_ 1) else none, vx := if pvx then vxOfWord (at_ i1) else none,
    sx := if psx then sxOfWord (at_ i2) else none, qx := if pqx then qxOfWord (at_ i3) else none,
    size := 8 * (i3 + pqx.toNat) }

end Machine
end Sys2Proof
end

