-- ==== Sys2Proof/Config.lean ====
section
/-! DEFINITION. What the spec leaves open: the free values. Each is an opaque constant, so no proof can see it. -/
namespace Sys2Proof.Config

/-- The n-th free value: what a result the spec calls unpredictable, or does not state, turns out to be
(log 10). -/
opaque free : Nat → Word

/-- The n-th free value of the commands of physical core k: the same, for what one core computes (log 10). -/
opaque coreFree : Nat → Nat → Word

/-- Byte i of a source beat beyond the lanes below N, which a shuffle of a last beat can name and for which nothing is
read (spec/04 R107 states no value): fixed by the command's fields and by the bits that its beat reads (R116), whatever
else the machine does (log 10). -/
opaque unread : List Nat → List (BitVec 8) → Nat → BitVec 8

/-- The seed that lane p of a port's scrambler starts from (spec/10 R281 names none; log 16). -/
opaque scramblerSeed : Nat → BitVec 31

/-- The nonce of the n-th ECDSA signature that MC0 makes (spec/15 R439 names none; log 16). -/
opaque nonce : Nat → Nat

/-- The module's identity private key (spec/14 R411: fixed at manufacture). -/
opaque identityKey : Nat

/-- The serial number of the module's identity certificate, low 16 bytes (spec/15 R437, R439; log 16). -/
opaque certSerial : BitVec 128

/-- The n-th debug challenge that MC0 draws, 16 bytes (spec/15 R444). -/
opaque challenge : Nat → BitVec 128

end Sys2Proof.Config
end

