-- ==== Sys2Proof/Machine/Regs.lean ====
section
/-! DEFINITION. The register map (spec/01-16, R343): every register table of the spec as a list of descriptions, with
access codes (R12) and reset values; how a register reads and what a write makes of it (R12, R13). -/
namespace Sys2Proof.Machine

/-- The access codes of R12; fw is 'RO to the host, RW to firmware'. -/
inductive Access where
  | rw | ro | w1c | wo | rs | fw
deriving DecidableEq, Repr

/-- A field: its bits and its access code. -/
structure RegField where
  hi : Nat
  lo : Nat
  acc : Access
deriving DecidableEq, Repr

/-- A register or an array of registers: the offset of the first, the stride and count of each dimension, the width in
bytes, the fields and the reset value. -/
structure RegDesc where
  base : Nat
  dims : List (Nat × Nat)
  bytes : Nat
  fields : List RegField
  reset : Nat
deriving DecidableEq, Repr

/-- The indices of the array element that starts at distance d from the first, if one does. -/
def dimIndex : List (Nat × Nat) → Nat → Option (List Nat)
  | [], d => if d = 0 then some [] else none
  | (st, n) :: ds, d =>
      let i := if ds.isEmpty then d / st else min (d / st) (n - 1)
      if i < n then (dimIndex ds (d - i * st)).map (fun l => i :: l) else none

/-- Registers of the hub group, part 1. -/
def hubRegs1 : List RegDesc :=
  [ /- HUB.GDESC.W0 R24 -/ ⟨0x100000, [(0x20, 4096)], 8, [⟨63, 63, .rw⟩, ⟨62, 60, .rw⟩, ⟨59, 56, .rw⟩, ⟨55, 48, .ro⟩, ⟨47, 32, .rw⟩, ⟨31, 16, .rw⟩, ⟨15, 0, .rw⟩], 0⟩
  , /- HUB.GDESC.W1 R24 -/ ⟨0x100008, [(0x20, 4096)], 8, [⟨52, 32, .rw⟩, ⟨31, 16, .rw⟩, ⟨0, 0, .ro⟩], 0⟩
  , /- HUB.GDESC.W2 R24 -/ ⟨0x100010, [(0x20, 4096)], 8, [⟨63, 32, .rw⟩, ⟨31, 16, .rw⟩, ⟨15, 0, .rw⟩], 0⟩
  , /- HUB.GMEM R25 -/ ⟨0x120000, [(4, 65536)], 4, [⟨31, 0, .rw⟩], 0⟩
  , /- HUB.GERR R26 -/ ⟨0x138, [], 8, [⟨1, 1, .w1c⟩, ⟨0, 0, .w1c⟩], 0⟩
  , /- HUB.TRAVEL.HDR R207 -/ ⟨0x200000, [], 8, [⟨63, 63, .ro⟩, ⟨62, 62, .ro⟩, ⟨55, 48, .ro⟩, ⟨47, 40, .ro⟩, ⟨39, 32, .ro⟩, ⟨31, 24, .ro⟩], 0⟩
  , /- HUB.TRAVEL.REL R207 -/ ⟨0x200040, [(1, 48)], 1, [⟨2, 0, .ro⟩], 0⟩
  , /- HUB.TRAVEL.CC R208 -/ ⟨0x200100, [(4, 576)], 4, [⟨31, 16, .ro⟩, ⟨15, 0, .ro⟩], 0⟩
  , /- HUB.TRAVEL.DD R208 -/ ⟨0x200c00, [(4, 16)], 4, [⟨31, 16, .ro⟩, ⟨15, 0, .ro⟩], 0⟩
  , /- HUB.TRAVEL.DRR R208 -/ ⟨0x200c40, [(4, 32)], 4, [⟨31, 16, .ro⟩, ⟨15, 0, .ro⟩], 0⟩
  , /- HUB.TRAVEL.DRW R208 -/ ⟨0x200cc0, [(4, 32)], 4, [⟨31, 16, .ro⟩, ⟨15, 0, .ro⟩], 0⟩
  , /- HUB.TRAVEL.MM R208 -/ ⟨0x201000, [(4, 4096)], 4, [⟨31, 16, .ro⟩, ⟨15, 0, .ro⟩], 0⟩
  , /- HUB.WIN.W0 R260 -/ ⟨0x300000, [(0x20, 256)], 8, [⟨63, 63, .rw⟩, ⟨62, 60, .rw⟩, ⟨59, 59, .rw⟩, ⟨58, 58, .rw⟩, ⟨55, 52, .rw⟩, ⟨51, 51, .rw⟩, ⟨45, 40, .rw⟩], 0⟩
  , /- HUB.WIN.W1 R260 -/ ⟨0x300008, [(0x20, 256)], 8, [⟨53, 0, .rw⟩], 0⟩
  , /- HUB.WIN.W2 R260 -/ ⟨0x300010, [(0x20, 256)], 8, [⟨53, 0, .rw⟩], 0⟩
  , /- HUB.WINERR R262 -/ ⟨0x302000, [], 8, [⟨63, 63, .w1c⟩, ⟨62, 60, .ro⟩, ⟨59, 59, .ro⟩, ⟨57, 54, .ro⟩, ⟨53, 0, .ro⟩], 0⟩
  , /- HUB.WINERR.SRC R262 -/ ⟨0x302008, [], 8, [⟨63, 32, .ro⟩], 0⟩
  , /- HUB.GW R341 -/ ⟨0x100, [], 8, [⟨63, 62, .ro⟩, ⟨61, 61, .ro⟩, ⟨53, 48, .ro⟩], 0⟩
  , /- HUB.HCTL R344 -/ ⟨0x108, [], 8, [⟨63, 63, .fw⟩, ⟨31, 0, .ro⟩], 0⟩
  , /- HUB.APER R345 -/ ⟨0x2000, [(8, 64)], 8, [⟨63, 63, .rw⟩, ⟨62, 62, .rw⟩, ⟨32, 0, .rw⟩], 0⟩ ]

/-- Registers of the hub group, part 2. -/
def hubRegs2 : List RegDesc :=
  [ /- HUB.VAPER R345 -/ ⟨0x2200, [(0x20, 16), (8, 4)], 8, [⟨63, 63, .rw⟩, ⟨62, 62, .rw⟩, ⟨32, 0, .rw⟩], 0⟩
  , /- HUB.PART.W0 R347 -/ ⟨0x1000, [(0x40, 16)], 8, [⟨63, 63, .rw⟩, ⟨62, 62, .rw⟩, ⟨57, 48, .rw⟩, ⟨47, 40, .rw⟩, ⟨20, 0, .rw⟩], 0x1000000000000⟩
  , /- HUB.PART.W1 R347 -/ ⟨0x1008, [(0x40, 16)], 8, [⟨63, 48, .rw⟩, ⟨31, 16, .ro⟩, ⟨15, 0, .rw⟩], 0⟩
  , /- HUB.PART.W2 R347 -/ ⟨0x1010, [(0x40, 16)], 8, [⟨63, 0, .ro⟩], 0⟩
  , /- HUB.PART.W3 R347 -/ ⟨0x1018, [(0x40, 16)], 8, [⟨63, 0, .rw⟩], 0⟩
  , /- HUB.PART.W4 R347 -/ ⟨0x1020, [(0x40, 16)], 8, [⟨20, 0, .ro⟩], 0⟩
  , /- HUB.PCORE R472 -/ ⟨0x4000, [(0x80, 16), (8, 12)], 8, [⟨63, 0, .fw⟩], 0⟩
  , /- HUB.STREAMSTAT R362 -/ ⟨0x110, [], 8, [⟨62, 42, .ro⟩, ⟨41, 21, .ro⟩, ⟨20, 0, .ro⟩], 0x40000⟩
  , /- HUB.LT.W0 R364 -/ ⟨0x310000, [(0x40, 256)], 8, [⟨63, 63, .rw⟩, ⟨62, 62, .rw⟩, ⟨61, 58, .rw⟩, ⟨56, 52, .rw⟩, ⟨51, 40, .rw⟩, ⟨39, 24, .rw⟩, ⟨23, 8, .rw⟩, ⟨5, 0, .rw⟩], 0⟩
  , /- HUB.LT.W1 R364 -/ ⟨0x310008, [(0x40, 256)], 8, [⟨63, 0, .rw⟩], 0⟩
  , /- HUB.LT.W2 R364 -/ ⟨0x310010, [(0x40, 256)], 8, [⟨63, 32, .rw⟩, ⟨31, 0, .rw⟩], 0⟩
  , /- HUB.LT.W3 R364 -/ ⟨0x310018, [(0x40, 256)], 8, [⟨63, 0, .rw⟩], 0⟩
  , /- HUB.LT.W4 R364 -/ ⟨0x310020, [(0x40, 256)], 8, [⟨63, 0, .ro⟩], 0⟩
  , /- HUB.LT.W5 R364 -/ ⟨0x310028, [(0x40, 256)], 8, [⟨63, 0, .ro⟩], 0⟩
  , /- HUB.LT.W6 R364 -/ ⟨0x310030, [(0x40, 256)], 8, [⟨63, 0, .rw⟩], 0⟩
  , /- HUB.LT.W7 R364 -/ ⟨0x310038, [(0x40, 256)], 8, [⟨31, 0, .rw⟩], 0⟩
  , /- HUB.LTPATCH.W0 R367 -/ ⟨0x318000, [(0x80, 256), (0x10, 8)], 8, [⟨63, 63, .rw⟩, ⟨5, 0, .rw⟩], 0⟩
  , /- HUB.LTPATCH.W1 R367 -/ ⟨0x318008, [(0x80, 256), (0x10, 8)], 8, [⟨63, 0, .rw⟩], 0⟩
  , /- HUB.FLOG.W0 R380 -/ ⟨0x340000, [(0x40, 256)], 8, [⟨63, 0, .ro⟩], 0⟩
  , /- HUB.FLOG.W1 R380 -/ ⟨0x340008, [(0x40, 256)], 8, [⟨63, 60, .ro⟩, ⟨59, 59, .ro⟩, ⟨58, 58, .ro⟩, ⟨55, 48, .ro⟩, ⟨47, 44, .ro⟩, ⟨43, 38, .ro⟩, ⟨31, 0, .ro⟩], 0⟩ ]

/-- Registers of the hub group, part 3. -/
def hubRegs3 : List RegDesc :=
  [ /- HUB.FLOG.W2 R380 -/ ⟨0x340010, [(0x40, 256)], 8, [⟨55, 0, .ro⟩], 0⟩
  , /- HUB.FLOG.W3 R380 -/ ⟨0x340018, [(0x40, 256)], 8, [⟨63, 0, .ro⟩], 0⟩
  , /- HUB.FLOG.W4 R380 -/ ⟨0x340020, [(0x40, 256)], 8, [⟨63, 56, .ro⟩, ⟨55, 48, .ro⟩], 0⟩
  , /- HUB.FLOG.PTR R380 -/ ⟨0x344000, [], 8, [⟨31, 0, .ro⟩], 0⟩
  , /- HUB.WDOG R381 -/ ⟨0x1400, [(8, 16)], 8, [⟨63, 40, .rw⟩, ⟨39, 36, .rw⟩, ⟨23, 0, .rw⟩], 0x2000000000⟩
  , /- HUB.GUTTER R386 -/ ⟨0x120, [], 8, [⟨63, 0, .ro⟩], 0⟩
  , /- HUB.GUTTER.LAST R386 -/ ⟨0x128, [], 8, [⟨63, 63, .w1c⟩, ⟨62, 59, .ro⟩, ⟨58, 47, .ro⟩, ⟨46, 39, .ro⟩, ⟨38, 33, .ro⟩], 0⟩
  , /- HUB.STBY R397 -/ ⟨0x130, [], 8, [⟨63, 62, .ro⟩, ⟨61, 61, .ro⟩, ⟨59, 54, .ro⟩], 0⟩
  , /- HUB.EVC R446 -/ ⟨0x3000, [(8, 32)], 8, [⟨63, 63, .rw⟩, ⟨62, 62, .w1c⟩, ⟨59, 48, .rw⟩, ⟨47, 0, .rw⟩], 0⟩
  , /- HUB.EVS R448 -/ ⟨0x3100, [(8, 32)], 8, [⟨47, 0, .ro⟩], 0⟩
  , /- RQ.BASE R348 -/ ⟨0x80000, [(0x4000, 16), (0x40, 3)], 8, [⟨63, 12, .rw⟩], 0⟩
  , /- RQ.CFG R348 -/ ⟨0x80008, [(0x4000, 16), (0x40, 3)], 8, [⟨63, 63, .rw⟩, ⟨62, 62, .ro⟩, ⟨4, 0, .rw⟩], 0⟩
  , /- RQ.PTR R348 -/ ⟨0x80010, [(0x4000, 16), (0x40, 3)], 8, [⟨63, 32, .ro⟩, ⟨31, 0, .ro⟩], 0⟩
  , /- CQ.BASE R348 -/ ⟨0x80100, [(0x4000, 16)], 8, [⟨63, 12, .rw⟩], 0⟩
  , /- CQ.CFG R348 -/ ⟨0x80108, [(0x4000, 16)], 8, [⟨63, 63, .rw⟩, ⟨42, 32, .rw⟩, ⟨31, 16, .rw⟩, ⟨15, 8, .rw⟩, ⟨4, 0, .rw⟩], 0⟩
  , /- CQ.PTR R348 -/ ⟨0x80110, [(0x4000, 16)], 8, [⟨63, 32, .ro⟩, ⟨31, 0, .rw⟩], 0⟩
  , /- CREDIT R348 -/ ⟨0x80200, [(0x4000, 16)], 8, [⟨7, 0, .ro⟩], 0⟩
  , /- DB R348 -/ ⟨0x81000, [(0x4000, 16), (0x100, 3)], 4, [⟨31, 0, .wo⟩], 0⟩ ]

/-- Registers of the cad group, part 1. -/
def cadRegs1 : List RegDesc :=
  [ /- CAD.TALLY R313 -/ ⟨0x400000, [], 8, [⟨63, 32, .ro⟩, ⟨31, 0, .ro⟩], 0⟩
  , /- CAD.DCY R316 -/ ⟨0x400008, [], 8, [⟨63, 0, .rw⟩], 0⟩
  , /- CAD.STAT R338 -/ ⟨0x400010, [], 8, [⟨63, 63, .ro⟩, ⟨62, 62, .ro⟩, ⟨61, 61, .ro⟩, ⟨60, 60, .ro⟩, ⟨59, 59, .ro⟩, ⟨58, 58, .ro⟩, ⟨57, 57, .w1c⟩, ⟨56, 56, .w1c⟩, ⟨55, 55, .w1c⟩, ⟨54, 54, .w1c⟩, ⟨53, 53, .w1c⟩, ⟨5, 0, .ro⟩], 0⟩
  , /- CAD.FREQ R335 -/ ⟨0x400020, [], 8, [⟨63, 56, .ro⟩, ⟨55, 48, .ro⟩, ⟨47, 40, .ro⟩, ⟨39, 32, .rw⟩, ⟨31, 24, .rw⟩, ⟨23, 20, .rw⟩, ⟨19, 16, .rw⟩, ⟨15, 0, .rw⟩], 0x30210064⟩
  , /- CAD.MON R335 -/ ⟨0x400028, [], 8, [⟨63, 56, .rw⟩, ⟨55, 48, .ro⟩, ⟨47, 40, .rw⟩, ⟨39, 32, .rw⟩, ⟨31, 24, .rw⟩], 0x6473192d03000000⟩
  , /- CAD.SSC R337 -/ ⟨0x400030, [], 8, [⟨63, 61, .ro⟩, ⟨60, 58, .rw⟩, ⟨57, 57, .rw⟩, ⟨56, 56, .w1c⟩, ⟨55, 55, .w1c⟩], 0⟩
  , /- CAD.SSCAT R337 -/ ⟨0x400038, [], 8, [⟨63, 0, .rw⟩], 0⟩
  , /- CAD.WALK.PRES R324 -/ ⟨0x400040, [], 8, [⟨63, 0, .ro⟩], 0⟩
  , /- CAD.WALK.GRADEB R324 -/ ⟨0x400048, [], 8, [⟨63, 0, .ro⟩], 0⟩
  , /- CAD.WALK.DUP R324 -/ ⟨0x400050, [], 8, [⟨63, 0, .ro⟩], 0⟩
  , /- CAD.RIDGEHOST R329 -/ ⟨0x400060, [], 8, [⟨15, 8, .ro⟩, ⟨7, 0, .rw⟩], 0⟩
  , /- CAD.RIDGEFLT R327 -/ ⟨0x400068, [], 8, [⟨63, 63, .w1c⟩, ⟨55, 0, .ro⟩], 0⟩
  , /- CAD.RIDGEFLT.BITS R327 -/ ⟨0x400070, [], 8, [⟨23, 8, .ro⟩, ⟨7, 0, .ro⟩], 0⟩
  , /- CAD.PCAP R458 -/ ⟨0x400080, [], 8, [⟨63, 52, .rw⟩, ⟨51, 40, .rw⟩, ⟨39, 32, .rw⟩, ⟨31, 24, .rw⟩, ⟨23, 16, .rw⟩, ⟨15, 8, .rw⟩, ⟨7, 0, .ro⟩], 0x300c106448⟩
  , /- CAD.PWR R457 -/ ⟨0x400088, [], 8, [⟨63, 48, .ro⟩, ⟨47, 32, .ro⟩, ⟨31, 16, .ro⟩, ⟨15, 15, .w1c⟩, ⟨14, 14, .ro⟩], 0⟩
  , /- CAD.BAR R328 -/ ⟨0x400100, [(8, 32)], 8, [⟨63, 63, .rw⟩, ⟨62, 62, .rw⟩, ⟨61, 61, .ro⟩, ⟨55, 0, .rw⟩], 0⟩
  , /- CAD.REGION R335 -/ ⟨0x400400, [(8, 53)], 8, [⟨63, 56, .ro⟩, ⟨55, 48, .ro⟩, ⟨47, 40, .ro⟩, ⟨39, 32, .ro⟩, ⟨31, 31, .ro⟩, ⟨30, 30, .ro⟩, ⟨29, 29, .ro⟩, ⟨28, 28, .rs⟩, ⟨27, 27, .rs⟩], 0⟩
  , /- CAD.PAD R339 -/ ⟨0x400800, [(8, 64)], 8, [⟨7, 6, .rw⟩, ⟨4, 0, .rw⟩], 0xc2⟩ ]

/-- Registers of the fab group, part 1. -/
def fabRegs1 : List RegDesc :=
  [ /- FAB.CFG R309 -/ ⟨0x410000, [], 8, [⟨57, 48, .rw⟩, ⟨47, 40, .ro⟩, ⟨39, 32, .ro⟩, ⟨5, 0, .ro⟩], 0x280000000000⟩
  , /- FAB.COMMIT.AT R291 -/ ⟨0x410010, [], 8, [⟨63, 0, .rw⟩], 0⟩
  , /- FAB.COMMIT.CTL R291 -/ ⟨0x410018, [], 8, [⟨63, 63, .rw⟩, ⟨62, 62, .w1c⟩], 0⟩
  , /- FAB.PORT.W0 R305 -/ ⟨0x411000, [(0x10, 24)], 8, [⟨63, 63, .rw⟩, ⟨62, 62, .wo⟩, ⟨31, 0, .rw⟩], 0x76543210⟩
  , /- FAB.PORT.W1 R305 -/ ⟨0x411008, [(0x10, 24)], 8, [⟨63, 61, .ro⟩, ⟨60, 60, .w1c⟩, ⟨59, 54, .ro⟩, ⟨53, 49, .ro⟩, ⟨47, 32, .ro⟩, ⟨31, 0, .ro⟩], 0x76543210⟩
  , /- FAB.PMAP R308 -/ ⟨0x411400, [(8, 24)], 8, [⟨12, 8, .ro⟩, ⟨4, 0, .rw⟩], 0⟩
  , /- FAB.RSEL R295 -/ ⟨0x412800, [(8, 64)], 8, [⟨9, 8, .ro⟩, ⟨7, 4, .rw⟩, ⟨1, 0, .rw⟩], 0⟩
  , /- FAB.UREG R298 -/ ⟨0x412c00, [(8, 16)], 8, [⟨47, 32, .rw⟩, ⟨13, 0, .rw⟩], 0⟩
  , /- FAB.UTOK R298 -/ ⟨0x412c80, [(8, 16)], 8, [⟨15, 0, .ro⟩], 0⟩ ]

/-- Registers of the mgc group, part 1. -/
def mgcRegs1 : List RegDesc :=
  [ /- MGC.BOOT R412 -/ ⟨0x430000, [], 8, [⟨63, 62, .ro⟩, ⟨61, 61, .ro⟩, ⟨59, 56, .ro⟩, ⟨55, 52, .ro⟩, ⟨51, 48, .ro⟩, ⟨47, 32, .ro⟩, ⟨7, 0, .ro⟩], 0xc000000000000000⟩
  , /- MGC.READY0 R418 -/ ⟨0x430010, [], 8, [⟨63, 63, .ro⟩, ⟨62, 62, .ro⟩, ⟨61, 61, .ro⟩, ⟨60, 60, .ro⟩, ⟨59, 59, .ro⟩, ⟨58, 53, .ro⟩, ⟨52, 49, .ro⟩, ⟨48, 41, .ro⟩, ⟨40, 17, .ro⟩], 0⟩
  , /- MGC.READY1 R418 -/ ⟨0x430018, [], 8, [⟨47, 0, .ro⟩], 0⟩
  , /- MGC.SEQ R414 -/ ⟨0x430100, [(8, 16)], 8, [⟨63, 63, .ro⟩, ⟨62, 60, .ro⟩, ⟨55, 48, .ro⟩, ⟨47, 45, .ro⟩, ⟨31, 0, .ro⟩], 0⟩
  , /- MGC.MC.W0 R422 -/ ⟨0x430200, [(0x10, 6)], 8, [⟨63, 63, .wo⟩, ⟨62, 62, .wo⟩, ⟨61, 59, .ro⟩, ⟨55, 48, .ro⟩, ⟨47, 32, .ro⟩], 0⟩
  , /- MGC.MC.W1 R422 -/ ⟨0x430208, [(0x10, 6)], 8, [⟨63, 0, .ro⟩], 0⟩
  , /- MGC.RCV R417 -/ ⟨0x430300, [], 8, [⟨63, 60, .wo⟩, ⟨59, 58, .ro⟩, ⟨57, 54, .ro⟩], 0⟩
  , /- MGC.FEAT.STAT R429 -/ ⟨0x430480, [], 8, [⟨63, 63, .ro⟩, ⟨62, 62, .ro⟩, ⟨61, 61, .ro⟩, ⟨47, 32, .ro⟩, ⟨31, 0, .ro⟩], 0⟩ ]

/-- Registers of the aud group, part 1. -/
def audRegs1 : List RegDesc :=
  [ /- AUD.SNAP.CTL R448 -/ ⟨0x440008, [], 8, [⟨63, 63, .rw⟩, ⟨62, 62, .w1c⟩, ⟨61, 61, .w1c⟩], 0⟩
  , /- AUD.DBG R445 -/ ⟨0x440010, [], 8, [⟨63, 63, .rs⟩, ⟨62, 59, .ro⟩, ⟨47, 32, .ro⟩, ⟨31, 0, .ro⟩], 0⟩
  , /- AUD.RKD R433 -/ ⟨0x441000, [(0x40, 256), (8, 7)], 8, [⟨63, 0, .fw⟩], 0⟩
  , /- AUD.KAREA.W0 R433 -/ ⟨0x445400, [(0x10, 16)], 8, [⟨63, 0, .fw⟩], 0⟩
  , /- AUD.KAREA.W1 R433 -/ ⟨0x445408, [(0x10, 16)], 8, [⟨63, 32, .fw⟩, ⟨31, 0, .ro⟩], 0⟩
  , /- AUD.CLOG.W0 R436 -/ ⟨0x445600, [(0x10, 16)], 8, [⟨63, 0, .fw⟩], 0⟩
  , /- AUD.CLOG.W1 R436 -/ ⟨0x445608, [(0x10, 16)], 8, [⟨63, 63, .fw⟩, ⟨4, 0, .fw⟩], 0⟩
  , /- AUD.CHAIN R438 -/ ⟨0x445000, [(0x40, 16), (8, 8)], 8, [⟨63, 0, .ro⟩], 0⟩
  , /- AUD.SIGN R440 -/ ⟨0x445800, [], 8, [⟨63, 32, .fw⟩, ⟨31, 0, .ro⟩], 0x200000000000000⟩ ]

/-- Registers of the die group, part 1. -/
def dieRegs1 : List RegDesc :=
  [ /- MEM.THERM R252 -/ ⟨0x480100, [(0x4000, 8)], 8, [⟨63, 63, .ro⟩, ⟨55, 48, .ro⟩, ⟨15, 8, .rw⟩, ⟨7, 0, .rw⟩], 0x5550⟩
  , /- MEM.SLOT R247 -/ ⟨0x481000, [(0x4000, 8), (0x400, 2), (1, 1024)], 1, [⟨7, 6, .rw⟩, ⟨3, 0, .rw⟩], 0⟩
  , /- CD.TAGPART R256 -/ ⟨0x803000, [(0x200000, 4), (8, 16)], 8, [⟨47, 32, .rw⟩, ⟨15, 0, .rw⟩], 0⟩
  , /- CD.TAGSTAT R256 -/ ⟨0x803080, [(0x200000, 4)], 8, [⟨47, 32, .ro⟩, ⟨15, 0, .ro⟩], 0x800000000000⟩
  , /- CD.EVC R446 -/ ⟨0x804000, [(0x200000, 4), (8, 32)], 8, [⟨63, 63, .rw⟩, ⟨62, 62, .w1c⟩, ⟨59, 48, .rw⟩, ⟨47, 0, .rw⟩], 0⟩
  , /- CD.EVS R448 -/ ⟨0x804100, [(0x200000, 4), (8, 32)], 8, [⟨47, 0, .ro⟩], 0⟩
  , /- CD.SYNC R266 -/ ⟨0x900000, [(0x200000, 4), (4, 32768)], 4, [⟨31, 0, .rw⟩], 0⟩
  , /- CL.SPARE R36 -/ ⟨0x1000000, [(0x40000, 4), (0x4000, 12)], 8, [⟨48, 32, .ro⟩, ⟨24, 24, .ro⟩, ⟨23, 23, .rw⟩, ⟨20, 16, .ro⟩, ⟨4, 0, .rw⟩], 0⟩
  , /- CL.ERR R379 -/ ⟨0x1000080, [(0x40000, 4), (0x4000, 12)], 8, [⟨63, 63, .w1c⟩, ⟨62, 62, .ro⟩, ⟨61, 58, .ro⟩, ⟨57, 53, .ro⟩, ⟨52, 50, .ro⟩, ⟨49, 44, .ro⟩, ⟨43, 28, .ro⟩, ⟨27, 20, .ro⟩], 0⟩
  , /- CL.CMB.W0 R161 -/ ⟨0x1002000, [(0x40000, 4), (0x4000, 12), (0x20, 64)], 8, [⟨63, 63, .rw⟩, ⟨62, 60, .rw⟩, ⟨56, 50, .rw⟩, ⟨43, 32, .rw⟩, ⟨15, 0, .rw⟩], 0⟩
  , /- CL.CMB.W1 R161 -/ ⟨0x1002008, [(0x40000, 4), (0x4000, 12), (0x20, 64)], 8, [⟨63, 63, .rw⟩, ⟨55, 52, .rw⟩, ⟨47, 42, .rw⟩, ⟨15, 0, .rw⟩], 0⟩
  , /- CL.CMB.W2 R161 -/ ⟨0x1002010, [(0x40000, 4), (0x4000, 12), (0x20, 64)], 8, [⟨39, 32, .ro⟩, ⟨27, 16, .ro⟩, ⟨15, 0, .ro⟩], 0⟩ ]

/-- Registers of the core group, part 1. -/
def coreRegs1 : List RegDesc :=
  [ /- CORE.P R183 -/ ⟨0, [(8, 64)], 8, [⟨63, 0, .rw⟩], 0⟩
  , /- CORE.S R183 -/ ⟨0x200, [(8, 16)], 8, [⟨63, 0, .ro⟩], 0⟩
  , /- CORE.PFIX R183 -/ ⟨0x280, [], 8, [⟨62, 0, .rw⟩], 0⟩
  , /- CORE.SEQ R183 -/ ⟨0x288, [], 8, [⟨63, 62, .ro⟩, ⟨61, 56, .ro⟩, ⟨55, 48, .ro⟩, ⟨47, 32, .ro⟩, ⟨31, 0, .ro⟩], 0x3f00000000000000⟩
  , /- CORE.SXFR R258 -/ ⟨0x290, [], 8, [⟨63, 63, .rw⟩, ⟨11, 0, .rw⟩], 0⟩
  , /- CORE.OWN R441 -/ ⟨0x298, [], 8, [⟨63, 63, .wo⟩, ⟨62, 62, .ro⟩, ⟨3, 0, .rw⟩], 0⟩
  , /- CORE.KT R173 -/ ⟨0x400, [(8, 32)], 8, [⟨63, 63, .rw⟩, ⟨47, 32, .rw⟩, ⟨15, 0, .rw⟩], 0⟩
  , /- CORE.MXOVF R98 -/ ⟨0x800, [(8, 4)], 8, [⟨63, 0, .w1c⟩], 0⟩
  , /- CORE.MXPZN R98 -/ ⟨0x820, [(8, 4)], 8, [⟨63, 0, .w1c⟩], 0⟩
  , /- CORE.QB.W0 R150 -/ ⟨0x1000, [(0x20, 48)], 8, [⟨63, 62, .rw⟩, ⟨61, 61, .rw⟩, ⟨59, 58, .rw⟩, ⟨47, 32, .rw⟩, ⟨31, 19, .rw⟩, ⟨18, 0, .rw⟩], 0⟩
  , /- CORE.QB.W1 R150 -/ ⟨0x1008, [(0x20, 48)], 8, [⟨47, 32, .ro⟩, ⟨15, 0, .ro⟩], 0⟩
  , /- CORE.QB.W2 R150 -/ ⟨0x1010, [(0x20, 48)], 8, [⟨63, 32, .rw⟩, ⟨5, 0, .rw⟩], 0⟩
  , /- CORE.EVC R446 -/ ⟨0x1800, [(8, 8)], 8, [⟨63, 63, .rw⟩, ⟨62, 62, .w1c⟩, ⟨59, 48, .rw⟩, ⟨47, 0, .rw⟩], 0⟩
  , /- CORE.EVS R448 -/ ⟨0x1840, [(8, 8)], 8, [⟨47, 0, .ro⟩], 0⟩
  , /- CORE.TRCCTL R449 -/ ⟨0x1880, [], 8, [⟨63, 63, .rw⟩, ⟨55, 48, .rw⟩, ⟨47, 32, .rw⟩, ⟨31, 16, .rw⟩, ⟨15, 0, .ro⟩], 0xffff00000000⟩
  , /- CORE.TRC R449 -/ ⟨0x1900, [(0x10, 64), (8, 2)], 8, [⟨63, 0, .ro⟩], 0⟩ ]

/-- Registers that the spec gives in its text: route tables (R295), slot tables (R286), the snapshot tally (R448),
BOOTVER, the feature maps (R429), the head log (R440) and the mailbox (R427). -/
def textRegs : List RegDesc :=
  [ /- FAB.ROUTE.W0-W1 R295 -/ ⟨0x412000, [(0x20, 64), (8, 2)], 8, [⟨63, 63, .rw⟩, ⟨61, 32, .rw⟩, ⟨31, 31, .rw⟩, ⟨29, 0, .rw⟩], 0⟩
  , /- FAB.ROUTE.W2-W3 R295 -/ ⟨0x412010, [(0x20, 64), (8, 2)], 8, [⟨63, 63, .ro⟩, ⟨61, 32, .ro⟩, ⟨31, 31, .ro⟩, ⟨29, 0, .ro⟩], 0⟩
  , /- FAB.SLOT[0] R286 -/ ⟨0x420000, [(0x400, 24), (2, 512)], 2, [⟨15, 14, .ro⟩, ⟨13, 9, .ro⟩, ⟨3, 0, .ro⟩], 0⟩
  , /- FAB.SLOT[1] R286 -/ ⟨0x426000, [(0x400, 24), (2, 512)], 2, [⟨15, 14, .rw⟩, ⟨13, 9, .rw⟩, ⟨3, 0, .rw⟩], 0⟩
  , /- AUD.SNAP.AT R448 -/ ⟨0x440000, [], 8, [⟨63, 0, .rw⟩], 0⟩
  , /- AUD.HLOG R440 -/ ⟨0x448000, [(0x100, 128), (8, 32)], 8, [⟨63, 0, .ro⟩], 0⟩
  , /- MGC.BOOTVER R412 -/ ⟨0x430008, [], 8, [⟨63, 0, .ro⟩], 0⟩
  , /- MGC.FEAT R429 -/ ⟨0x430440, [(8, 8)], 8, [⟨63, 0, .ro⟩], 0⟩
  , /- MGC.MBOX.DB R427 -/ ⟨0x430500, [], 8, [⟨0, 0, .wo⟩], 0⟩
  , /- MGC.MBOX.REQ R427 -/ ⟨0x431000, [(8, 256)], 8, [⟨63, 0, .rw⟩], 0⟩
  , /- MGC.MBOX.RSP R427 -/ ⟨0x431800, [(8, 256)], 8, [⟨63, 0, .ro⟩], 0⟩ ]

/-- Every register of the module outside the CORE blocks, by its offset in the control space. -/
def moduleRegs : List RegDesc := hubRegs1 ++ hubRegs2 ++ hubRegs3 ++ cadRegs1 ++ fabRegs1 ++ mgcRegs1 ++ audRegs1 ++ dieRegs1 ++ textRegs

/-- The registers of a CORE block, by their offset in it. -/
def coreRegs : List RegDesc := coreRegs1

/-- The description of the register that starts at an offset, with its indices. -/
def findReg (l : List RegDesc) (off : Nat) : Option (RegDesc × List Nat) :=
  l.findSome? (fun d => if d.base ≤ off then (dimIndex d.dims (off - d.base)).map (fun i => (d, i)) else none)

/-- The offset at which the register that holds byte `off` starts: accesses name any aligned part of it. -/
def regStart (l : List RegDesc) (off : Nat) : Option (RegDesc × Nat) :=
  [8, 4, 2, 1].findSome? (fun w => match findReg l (off / w * w) with
    | some (d, _) => if d.bytes = w then some (d, off / w * w) else none
    | none => none)

/-- The DRAM slot tables at reset (R249). -/
def memSlotReset (v k : Nat) : Nat :=
  if k % 16 = 15 then 0xC0
  else if k % 128 ≤ 14 || (v = 1 && 16 ≤ k % 128 && k % 128 ≤ 30) then 0x80
  else 0x40

/-- What the fields that the spec marks ST hold at reset (log 1): the values of a solo module at the nominal step
(R1, R302, R312, R341, R458), and zero where the spec points to none. -/
def starterReset : List (Nat × Nat) :=
  [ (0x100, 1 * 2 ^ 62 + 2 ^ 61)
  , (0x200000, 72 * 2 ^ 48 + 1 * 2 ^ 32)
  , (0x400010, 2 ^ 58)
  , (0x400020, 64 * 2 ^ 56 + 64 * 2 ^ 48 + 64 * 2 ^ 40 + 72 * 2 ^ 32)
  , (0x400080, 2400 * 2 ^ 52 + 1200 * 2 ^ 40) ]

/-- Reset values that depend on the index: FAB.SLOT (R286), FAB.PMAP (R308), MEM.SLOT (R249), CAD.REGION (log 1). -/
def indexedReset (base : Nat) (ix : List Nat) : Nat :=
  match base, ix with
  | 0x420000, [_, k] => if k % 64 = 63 then 3 * 2 ^ 14 else 0
  | 0x426000, [_, k] => if k % 64 = 63 then 3 * 2 ^ 14 else 0
  | 0x411400, [r] => r * 2 ^ 8 + r
  | 0x481000, [_, v, k] => memSlotReset v k
  | 0x400400, [_] => 64 * 2 ^ 56
  | _, _ => 0

/-- The reset value of the module register at an offset. -/
def regReset (off : Nat) : Word :=
  match findReg moduleRegs off with
  | none => 0
  | some (d, ix) =>
      BitVec.ofNat 64 (d.reset ||| indexedReset d.base ix ||| ((starterReset.find? (fun p => p.1 == off)).map (fun p => p.2)).getD 0)

/-- The reset value of the CORE register at an offset of its block. -/
def coreRegReset (off : Nat) : Word :=
  match findReg coreRegs off with
  | none => 0
  | some (d, _) => BitVec.ofNat 64 d.reset

/-- What a write of w makes of the field f of a register holding old (R12): the code decides. -/
def RegField.write (host : Bool) (old w cur : Word) (f : RegField) : Word :=
  match f.acc with
  | .rw => setFld cur f.hi f.lo (fld w f.hi f.lo)
  | .w1c => setFld cur f.hi f.lo (fld (old &&& ~~~w) f.hi f.lo)
  | .fw => if host then cur else setFld cur f.hi f.lo (fld w f.hi f.lo)
  | _ => cur

/-- A register's value after a write of w (R12, R13: reserved fields and read-only fields keep theirs). -/
def RegDesc.write (d : RegDesc) (host : Bool) (old w : Word) : Word :=
  d.fields.foldl (fun cur f => f.write host old w cur) old

/-- What a read of a register holding v returns (R12, R13): reserved and write-only fields read zero. -/
def RegDesc.read (d : RegDesc) (v : Word) : Word :=
  d.fields.foldl (fun cur f => if f.acc = .wo then cur else setFld cur f.hi f.lo (fld v f.hi f.lo)) 0

end Sys2Proof.Machine
end

