-- ==== Sys2Proof/Machine/Ops.lean ====
section
/-! DEFINITION. Named operations over registers, cores and the scratchpad: register reads and writes by offset,
UnitIDs (R19, R20), the physical map (R37), scratchpad ports with their conflicts (R139-R145), ECC (R147), scalar
writes of one cycle (R182), and free values. -/
namespace Sys2Proof.Machine

/-! ### Registers -/

/-- The register of the module at control-space offset `off`. -/
def State.reg (s : State) (off : Nat) : Word := Tab.get regReset s.regs off

/-- The state with the register at `off` holding w. -/
def State.setReg (s : State) (off : Nat) (w : Word) : State := { s with regs := Tab.set regReset s.regs off w }

/-- Bits [hi:lo] of a module register. -/
def State.fld (s : State) (off hi lo : Nat) : Nat := Machine.fld (s.reg off) hi lo

/-- The state with bits [hi:lo] of a module register set to v. -/
def State.setFld (s : State) (off hi lo v : Nat) : State := s.setReg off (Machine.setFld (s.reg off) hi lo v)

/-- The CORE register at offset `off` of its block. -/
def Core.reg (c : Core) (off : Nat) : Word := Tab.get coreRegReset c.regs off
def Core.setReg (c : Core) (off : Nat) (w : Word) : Core := { c with regs := Tab.set coreRegReset c.regs off w }

/-- Parameter register n (R179, R183). -/
def Core.p (c : Core) (n : Nat) : Word := c.reg (8 * n)
def Core.setP (c : Core) (n : Nat) (w : Word) : Core := c.setReg (8 * n) w

/-- Scalar register n as it stands (R182, R183). -/
def Core.sreg (c : Core) (n : Nat) : Word := c.reg (0x200 + 8 * n)
def Core.setSreg (c : Core) (n : Nat) (w : Word) : Core := c.setReg (0x200 + 8 * n) w

/-- Scalar register n as reads of the running cycle see it: without the writes of the cycle itself (R182). -/
def Core.s (c : Core) (n : Nat) : Word :=
  match c.slog.find? (fun e => e.r == n) with
  | some e => e.old
  | none => c.sreg n

/-- Words W0 and W2 of the queue-end binding n (R150). -/
def Core.qb0 (c : Core) (n : Nat) : Word := c.reg (0x1000 + 32 * n)
def Core.qb2 (c : Core) (n : Nat) : Word := c.reg (0x1010 + 32 * n)

/-! ### Running cycles, events and free values -/

/-- The running cycle of a core in die cycle `now` (R203): die cycles spent stalled do not count. -/
def Core.rc (c : Core) (now : Nat) : Nat := now - c.skew

/-- The core with an event noted for its counters (R447). -/
def Core.ev (c : Core) (event inst n : Nat) : Core :=
  if n = 0 then c else { c with evs := c.evs ++ [⟨event, inst, n⟩] }

/-- The next free value (log 10), and the state that has used it up. -/
def State.free (s : State) : Word × State := (Config.free s.freeCtr, { s with freeCtr := s.freeCtr + 1 })

/-! ### UnitIDs (R19, R20) -/

/-- What a UnitID names. -/
inductive UnitForm where
  | core (m d k l : Nat)
  | cluster (m d k : Nat)
  | die (m d : Nat)
  | module (m : Nat)
  | group (i : Nat)
  | bad
deriving DecidableEq, Repr

def UnitForm.ofId (u : UnitId) : UnitForm :=
  let n := u.toNat
  let m := bitsOf n 30 25
  let d := bitsOf n 24 23
  let k := bitsOf n 22 19
  let l := bitsOf n 18 14
  if natBit n 31 then (if bitsOf n 30 12 = 0 then .group (bitsOf n 11 0) else .bad)
  else if bitsOf n 13 0 ≠ 0 then .bad
  else if k ≤ 11 ∧ l ≤ 15 then .core m d k l
  else if k ≤ 11 ∧ l = 31 then .cluster m d k
  else if k = 15 ∧ l = 31 then .die m d
  else if k = 14 ∧ l = 31 ∧ d = 0 then .module m
  else .bad

/-- The UnitID of a form (R19, R20). -/
def UnitForm.toId : UnitForm → UnitId
  | .core m d k l => BitVec.ofNat 32 (m * 2 ^ 25 + d * 2 ^ 23 + k * 2 ^ 19 + l * 2 ^ 14)
  | .cluster m d k => BitVec.ofNat 32 (m * 2 ^ 25 + d * 2 ^ 23 + k * 2 ^ 19 + 31 * 2 ^ 14)
  | .die m d => BitVec.ofNat 32 (m * 2 ^ 25 + d * 2 ^ 23 + 15 * 2 ^ 19 + 31 * 2 ^ 14)
  | .module m => BitVec.ofNat 32 (m * 2 ^ 25 + 14 * 2 ^ 19 + 31 * 2 ^ 14)
  | .group i => BitVec.ofNat 32 (2 ^ 31 + i)
  | .bad => 0

/-- The number this module answers to (R21, R309), and the second one a promoted standby answers to (R399). -/
def State.me (s : State) : Nat := s.fld 0x410000 5 0
def State.answers (s : State) (m : Nat) : Bool :=
  m == s.me || (s.fld 0x130 61 61 == 1 && m == s.fld 0x130 59 54)

/-! ### The physical map (R36-R38) -/

/-- The offset of CL.SPARE of a cluster, and of any other register of the CL block (R343). -/
def clOff (d k off : Nat) : Nat := 0x1000000 + 0x40000 * d + 0x4000 * k + off
def cdOff (d off : Nat) : Nat := 0x800000 + 0x200000 * d + off
def memOff (m off : Nat) : Nat := 0x480000 + 0x4000 * m + off

/-- The physical slots that are not fused off, in ascending order: entry l carries logical slot l (R37). -/
def unfused (spare : Word) : List Nat := (List.range 16).filter (fun p => !bitAt spare (32 + p))

/-- The physical slot of logical slot l (R37). -/
def physOf (spare : Word) (l : Nat) : Option Nat :=
  match (unfused spare)[l]? with
  | none => none
  | some p => if bitAt spare 23 && p == fld spare 4 0 then some 16 else some p

/-- The logical slot that physical slot p carries, if any. -/
def logicalOf (spare : Word) (p : Nat) : Option Nat := (List.range 16).find? (fun l => physOf spare l == some p)

/-- The key of a physical core in State.cores. -/
def physKey (d k p : Nat) : Nat := (12 * d + k) * 17 + p

/-- The key of the physical core that carries a logical core; none where the unit does not exist (R3, R22). -/
def State.key (s : State) (u : CoreId) : Option Nat :=
  if u.die < 4 ∧ u.cluster < 12 then
    (physOf (s.reg (clOff u.die u.cluster 0)) u.slot).map (physKey u.die u.cluster)
  else none

/-- The logical core that the physical core of a key carries, if any. -/
def State.idOf (s : State) (key : Nat) : Option CoreId :=
  let d := key / 17 / 12
  let k := key / 17 % 12
  (logicalOf (s.reg (clOff d k 0)) (key % 17)).map (fun l => ⟨d, k, l⟩)

/-- Does the logical core exist? -/
def State.hasCore (s : State) (u : CoreId) : Bool := (s.key u).isSome

def State.coreAt (s : State) (key : Nat) : Core := Tab.get Core.dflt s.cores key
def State.setCoreAt (s : State) (key : Nat) (c : Core) : State :=
  { s with cores := Tab.set Core.dflt s.cores key c }

/-- The core of a unit; a core that does not exist reads as one after reset. -/
def State.core (s : State) (u : CoreId) : Core :=
  match s.key u with
  | some k => s.coreAt k
  | none => Core.reset

/-- The core-form UnitID of a logical core of this module. -/
def State.unitOf (s : State) (u : CoreId) : UnitId := UnitForm.toId (.core s.me u.die u.cluster u.slot)

/-! ### Scratchpad storage (R139-R147) -/

/-- The first address beyond the scratchpad (R139). -/
def spadEnd : Nat := 0x60000

/-- The bank and sub-bank of a 16 B unit, as one number (R140). -/
def bankOf (addr : Nat) : Nat :=
  nxor (nxor (bitsOf addr 8 4) (bitsOf addr 13 9)) (bitsOf addr 18 14)
def subBank (unit : Nat) : Nat := bankOf (unit * 16) * 6 + unit / 32 % 6

/-- Bit 4 of the bank index: 0 for the near banks of the VX and QX ports, 1 for those of SX-R (R143, R144). -/
def farBit (addr : Nat) : Bool := natBit (bankOf addr) 4

/-- The read latency of a region for a port whose near value is `near` (R144): 3 cy if every aligned 256 B of the
region has that value, else 5 cy. -/
def regionLat (near : Bool) (start len : Nat) : Nat :=
  let first := start / 256
  let last := (start + len - 1) / 256
  if len = 0 then 3
  else if (List.range (last + 1 - first)).all (fun i => farBit ((first + i) * 256) == near) then 3 else 5

/-- A byte as reads of the cycle in progress see it: without the writes of the cycle itself (R142). -/
def Core.byteOld (c : Core) (a : Nat) : Byte :=
  match c.wlog.findSome? (fun w => (w.olds.find? (fun p => p.1 == a)).map (fun p => p.2)) with
  | some b => b
  | none => c.mem.byte a

/-- The capture of a core fault (R379): its kind, the position of the command concerned (7: none), the template and the
TAG of its bundle. -/
def faultCapture (kind pos tmpl tag : Nat) : Word := BitVec.ofNat 64 (kind + pos * 2 ^ 4 + tmpl * 2 ^ 8 + tag * 2 ^ 16)

/-- A core fault of a kind that concerns no command. -/
def Core.fault (c : Core) (kind : Nat) : Core :=
  { c with faults := c.faults ++ [{ cls := 0, unit := 0, parts := 0,
                                    capture := some (faultCapture kind 7 c.seq.tmpl c.seq.tag) }] }

/-- Faults raised since the core held n of them are those of a command: its position in its bundle and its TAG (R171). -/
def Core.blame (n pos tag : Nat) (c : Core) : Core :=
  { c with faults := c.faults.take n ++ (c.faults.drop n).map (fun f => { f with
      capture := f.capture.map (fun k => faultCapture (k.toNat % 16) pos c.seq.tmpl tag) }) }

/-- The ECC check of a read of the words that the unit holds (R147): a single-bit error is corrected and counted, and its
write-back waits; a double-bit error raises a core fault. -/
def Core.eccRead (c : Core) (unit : Nat) : Core :=
  (List.range 4).foldl (fun (c : Core) i =>
    let w := unit * 4 + i
    match Tab.find c.ecc w with
    | some 2 => c.fault 0
    | some e => ({ c with ecc := Tab.put w (if e = 4 then 4 else 3) c.ecc }).ev 0x0D 0 1
    | none => c) c

/-- One read of a 16 B unit through port p in the cycle in progress (R141, R145): the sub-bank serves one unit; a
later port, or a later unit of the same access, that wants another unit reads zeros and counts a conflict. -/
def Core.readUnit (c : Core) (p unit : Nat) : Bool × Core :=
  if unit * 16 ≥ spadEnd then (false, c)
  else
    let sb := subBank unit
    match c.busy.find? (fun e => e.1 == sb) with
    | some e => if e.2 == unit then (true, c) else (false, c.ev 0x0A p 1)
    | none => (true, ({ c with busy := c.busy ++ [(sb, unit)] }).eccRead unit)

/-- A read of the bytes at the given addresses through port p, unit by unit in their order; lost and absent bytes
read zero (R139, R145). -/
def Core.readCells (c : Core) (p : Nat) (as : List Nat) : List Byte × Core :=
  let units := (as.map (fun a => a / 16)).eraseDups
  let r := units.foldl (fun (acc : List Nat × Core) u =>
    let x := acc.2.readUnit p u
    (if x.1 then acc.1 ++ [u] else acc.1, x.2)) (([] : List Nat), c)
  (as.map (fun a => if r.1.contains (a / 16) then r.2.byteOld a else 0), r.2)

/-- A read of n bytes from address a through port p. -/
def Core.readFrom (c : Core) (p a n : Nat) : List Byte × Core :=
  c.readCells p ((List.range n).map (fun i => a + i))

/-- A memory with each addressed byte written. -/
def Core.putCells (m : Memory) : List (Nat × Byte) → Memory
  | [] => m
  | q :: l => Core.putCells (m.setByte q.1 q.2) l

/-- The ECC effect of writing the bytes at the given addresses (R147). -/
def Core.eccWrite (c : Core) (as : List Nat) : Core :=
  c.ecc.foldl (fun c e =>
    let hit := (List.range 4).filter (fun i => as.contains (e.1 * 4 + i))
    if hit.isEmpty then c
    else if hit.length = 4 then { c with ecc := Tab.erase e.1 c.ecc }
    else if e.2 ≠ 2 then ({ c with ecc := Tab.erase e.1 c.ecc }).ev 0x0D 0 1
    else c) c

/-- The write-backs of a cycle that ends (R147): one corrected word in each sub-bank that has had no write in it, if its
correction is older than the cycle (DESIGN CHOICE, log 41); corrections of the cycle wait from now on. -/
def Core.writeBack (c : Core) : Core :=
  let r := c.ecc.foldl (fun (st : List Nat × Tab Nat) e =>
    let sb := subBank (e.1 / 4)
    if e.2 = 4 && !st.1.contains sb then (sb :: st.1, st.2)
    else (st.1, st.2 ++ [(e.1, if e.2 = 3 then 4 else e.2)])) (c.wlog.map (fun w => subBank w.unit), [])
  { c with ecc := r.2 }

/-- The ECC effect of the writes of a cycle that ends: those that no conflict has dropped (R145, R147). -/
def Core.settleEcc (c : Core) : Core :=
  if c.ecc.isEmpty then c
  else (c.eccWrite ((c.wlog.map (fun w => w.olds.map (fun q => q.1))).flatten)).writeBack

/-- Bytes of one unit written through port p in the cycle in progress (R141, R145): of two accesses that write one
sub-bank, the same unit or not, the one of the earlier port is served, and of one port the first; the loser is dropped and
counted. -/
def Core.writeUnit (c : Core) (p unit : Nat) (bs : List (Nat × Byte)) : Core :=
  if bs.isEmpty || unit * 16 ≥ spadEnd then c
  else
    let sb := subBank unit
    let clash := c.wlog.filter (fun w => subBank w.unit == sb)
    if clash.any (fun w => decide (w.port ≤ p)) then c.ev 0x0A p 1
    else
      let mem := Core.putCells c.mem ((clash.reverse.map (fun w => w.olds)).flatten)
      let log : List UnitWrite := c.wlog.filter (fun x => !clash.contains x)
      let olds : List (Nat × Byte) := bs.map (fun q => (q.1, Memory.byte mem q.1))
      let c : Core := { c with mem := Core.putCells mem bs, wlog := log ++ [{ port := p, unit := unit, olds := olds }] }
      match clash with
      | w :: _ => c.ev 0x0A w.port 1
      | [] => c

/-- Addressed bytes written through port p: unit by unit (R141); bytes beyond the scratchpad are dropped (R139). -/
def Core.writeCells (c : Core) (p : Nat) (bs : List (Nat × Byte)) : Core :=
  let live := bs.filter (fun q => q.1 < spadEnd)
  let units := (live.map (fun q => q.1 / 16)).eraseDups
  units.foldl (fun c u => c.writeUnit p u (live.filter (fun q => q.1 / 16 == u))) c

/-- n bytes written from address a through port p. -/
def Core.writeTo (c : Core) (p a : Nat) (bs : List Byte) : Core :=
  c.writeCells p (bs.zipIdx.map (fun q => (a + q.2, q.1)))

/-- Storage without a port: firmware, zeroisation, EXT-U in its free cycle (R146). Bytes beyond 0x5_FFFF are
dropped, and read zero. -/
def Core.pokeBytes (c : Core) (a : Nat) (bs : List Byte) : Core :=
  let live : List (Nat × Byte) := (bs.zipIdx.map (fun q => (a + q.2, q.1))).filter (fun q => q.1 < spadEnd)
  ({ c with mem := Core.putCells c.mem live } : Core).eccWrite (live.map (fun (q : Nat × Byte) => q.1))
def Core.peekBytes (c : Core) (a n : Nat) : List Byte :=
  (List.range n).map (fun i => if a + i < spadEnd then c.mem.byte (a + i) else 0)

/-! ### Scalar writes of one running cycle (R182) -/

/-- The value a scalar register ends the cycle with: B + m + v, the additions half by half. -/
def SWrite.value (e : SWrite) : Word :=
  let b := match e.qx with
    | some q => q.2
    | none => e.sred.getD e.old
  BitVec.ofNat 64 ((fld b 63 32 + e.hi) % 2 ^ 32 * 2 ^ 32 + (fld b 31 0 + e.lo) % 2 ^ 32)

/-- The cycle's entry of register r, new if it has none yet. -/
def Core.sentry (c : Core) (r : Nat) : SWrite :=
  match c.slog.find? (fun e => e.r == r) with
  | some e => e
  | none => { r := r, old := c.sreg r, qx := none, sred := none, lo := 0, hi := 0 }

/-- The core with entry e in the cycle's log and its register at the entry's value. -/
def Core.putEntry (c : Core) (e : SWrite) : Core :=
  ({ c with slog := e :: c.slog.filter (fun x => x.r != e.r) }).setSreg e.r e.value

/-- A QX write of register r by a command issued in running cycle `issue`: of two, the later issued counts. -/
def Core.qxWrite (c : Core) (issue r : Nat) (v : Word) : Core :=
  let e := c.sentry r
  match e.qx with
  | some q => if q.1 > issue then c else c.putEntry { e with qx := some (issue, v) }
  | none => c.putEntry { e with qx := some (issue, v) }

/-- An SRED write of register r. -/
def Core.sredWrite (c : Core) (r : Nat) (v : Word) : Core := c.putEntry { c.sentry r with sred := some v }

/-- An SC addition to register r (R99, R115): each half wraps on its own. -/
def Core.scAdd (c : Core) (r lo hi : Nat) : Core :=
  let e := c.sentry r
  c.putEntry { e with lo := e.lo + lo, hi := e.hi + hi }

/-! ### Trace records (R449) -/

/-- A trace record of the given kind, if tracing is on, the kind is enabled and the TAG lies in range. -/
def Core.trace (c : Core) (dcy pos kind data : Nat) : Core :=
  let ctl := c.reg 0x1880
  let tag := c.seq.tag
  if bitAt ctl 63 && bitAt ctl (48 + kind) && decide (fld ctl 31 16 ≤ tag ∧ tag ≤ fld ctl 47 32) then
    let w := fld ctl 15 0
    let lo := tag * 2 ^ 48 + pos * 2 ^ 46 + c.seq.tmpl * 2 ^ 40 + c.seq.gen * 2 ^ 32 + kind * 2 ^ 28 + data % 2 ^ 28
    ((c.setReg (0x1900 + 16 * (w % 64)) (BitVec.ofNat 64 lo)).setReg (0x1908 + 16 * (w % 64))
      (BitVec.ofNat 64 dcy)).setReg 0x1880 (setFld ctl 15 0 (w + 1))
  else c

end Sys2Proof.Machine
end

