-- ==== Sys2Proof/Machine/Operands.lean ====
section
/-! DEFINITION. Every operand form: queue ends as rings, channels and unbound ends (R150-R158), items of the matrix
arrays (R470), byte streams of the VX (R106), conditions (R188), and the values of QX and sync operands (R197,
R199). -/
namespace Sys2Proof.Machine

/-! ### Free bytes of a core's step (log 10) -/

/-- n free bytes. -/
def Core.freeBytes (c : Core) (n : Nat) : List Byte × Core :=
  ((List.range n).map (fun i => (Config.coreFree c.fid (c.fctr + i)).setWidth 8), { c with fctr := c.fctr + n })

/-- A free bit. -/
def Core.freeBit (c : Core) : Bool × Core := (bitAt (Config.coreFree c.fid c.fctr) 0, { c with fctr := c.fctr + 1 })

/-! ### Queue-end bindings (R150) -/

/-- KIND: 0 unbound, 1 ring, 2 channel in, 3 channel out. -/
def Core.qkind (c : Core) (q : Nat) : Nat := fld (c.qb0 q) 63 62
def Core.qbub (c : Core) (q : Nat) : Bool := bitAt (c.qb0 q) 61
def Core.qslots (c : Core) (q : Nat) : Nat := fld (c.qb0 q) 47 32
def Core.qbase (c : Core) (q : Nat) : Nat := fld (c.qb0 q) 18 0
def Core.qpeer (c : Core) (q : Nat) : UnitId := BitVec.ofNat 32 (fld (c.qb2 q) 63 32)
def Core.qpq (c : Core) (q : Nat) : Nat := fld (c.qb2 q) 5 0

/-- The element size: ESIZE of a ring, CWID of a channel (R150). -/
def Core.qesize (c : Core) (q : Nat) : Nat :=
  if c.qkind q = 1 then fld (c.qb0 q) 31 19 else 8 * (fld (c.qb0 q) 59 58 + 1)

/-- A binding with a reserved value (R151): its pops and pushes are unpredictable. -/
def Core.qbad (c : Core) (q : Nat) : Bool :=
  c.qkind q == 1 && (c.qslots q == 0 || fld (c.qb0 q) 31 19 == 0 || decide (fld (c.qb0 q) 31 19 > 4096))

/-- RD and WR of a ring; WR of a channel out holds its credits (R150). -/
def Core.qrd (c : Core) (q : Nat) : Nat := Tab.get (fun _ => 0) c.rd q
def Core.qwr (c : Core) (q : Nat) : Nat := Tab.get (fun _ => 0) c.wr q
def Core.setRd (c : Core) (q v : Nat) : Core := { c with rd := Tab.set (fun _ => 0) c.rd q v }
def Core.setWr (c : Core) (q v : Nat) : Core := { c with wr := Tab.set (fun _ => 0) c.wr q v }

/-- The elements waiting in a channel-in buffer (R155). -/
def Core.chanIn (c : Core) (q : Nat) : List Elem := Tab.get (fun _ => []) c.chan q
def Core.setChan (c : Core) (q : Nat) (l : List Elem) : Core := { c with chan := Tab.set (fun _ => []) c.chan q l }

/-- The effects of a binding of W0 (and W2) (R151): a ring starts at slot 0, a channel out with 32 credits, a channel
in empty. -/
def Core.bind (c : Core) (q : Nat) (w0 : Word) (w2 : Option Word) : Core :=
  let c := c.setReg (0x1000 + 32 * q) w0
  let c := match w2 with
    | some w => c.setReg (0x1010 + 32 * q) w
    | none => c
  match fld w0 63 62 with
  | 1 => (c.setRd q 0).setWr q 0
  | 3 => c.setWr q 32
  | 2 => (c.setChan q []).setRd q 0
  | _ => c

/-- A queue end whose binding is dropped (R160, R198 QUNBIND): KIND := 0. -/
def Core.unbind (c : Core) (q : Nat) : Core := c.setReg (0x1000 + 32 * q) (setFld (c.qb0 q) 63 62 0)

/-! ### Pops and pushes (R151-R158) -/

/-- The address of slot k of a ring. -/
def Core.slotAddr (c : Core) (q k : Nat) : Nat := c.qbase q + k * c.qesize q

/-- A pop of m elements of queue end q through port p (R152, R153, R158), of whose concatenation the first C bytes are
read (R148, R470). A pop of a channel in that finds fewer than m elements yields m invalid elements; the caller has stalled
before where BUB = 0. An item wider than the 128 B that a channel moves in a cycle (R155) pops whole all the same (R470 gives
no outcome; DESIGN CHOICE, log 70). -/
def Core.popBytes (c : Core) (p q m C : Nat) : List Elem × Core :=
  let e := c.qesize q
  match c.qkind q with
  | 1 =>
      let n := c.qslots q
      if c.qbad q then
        let r := c.freeBytes (m * e)
        ((List.range m).map (fun i => { valid := true, bytes := slice r.1 (i * e) e }), r.2)
      else
        let r := (List.range m).foldl (fun (a : List Elem × Core) i =>
          let x := a.2.readFrom p (c.slotAddr q ((c.qrd q + i) % n)) (min e (C - i * e))
          (a.1 ++ [{ valid := true, bytes := padTo 0 e x.1 }], x.2)) (([] : List Elem), c)
        (r.1, r.2.setRd q ((c.qrd q + m) % n))
  | 2 =>
      let l := c.chanIn q
      if l.length < m then (List.replicate m { valid := false, bytes := List.replicate e 0 }, c)
      else (l.take m, { c.setChan q (l.drop m) with outs := c.outs ++ [.credit q (c.qpeer q) (c.qpq q) m] })
  | _ => (List.replicate m { valid := false, bytes := List.replicate e 0 }, c)

/-- A pop of m whole elements. -/
def Core.popElems (c : Core) (p q m : Nat) : List Elem × Core := c.popBytes p q m (m * c.qesize q)

/-- Is a pop of the queue end one of an unbound or wrong-direction end (R151)? -/
def Core.noPop (c : Core) (q : Nat) : Bool := c.qkind q == 0 || c.qkind q == 3
def Core.noPush (c : Core) (q : Nat) : Bool := c.qkind q == 0 || c.qkind q == 2

/-- A push of elements to queue end q through port p (R152, R157): a ring takes their bytes, a channel out sends them
and spends credits; elsewhere they are discarded (the caller counts the item). -/
def Core.pushElems (c : Core) (p q : Nat) (es : List Elem) : Core :=
  match c.qkind q with
  | 1 =>
      if c.qbad q then c
      else
        let n := c.qslots q
        let cells := (es.zipIdx.map (fun x =>
          (x.1.bytes.take (c.qesize q)).zipIdx.map (fun y => (c.slotAddr q ((c.qwr q + x.2) % n) + y.2, y.1)))).flatten
        (c.writeCells p cells).setWr q ((c.qwr q + es.length) % n)
  | 3 =>
      { c.setWr q (c.qwr q - es.length) with outs := c.outs ++ [.push q (c.qpeer q) (c.qpq q) es] }
  | _ => c

/-- The write position of a ring moved over m slots without writing them (R84, R137, R153). -/
def Core.skipSlots (c : Core) (q m : Nat) : Core :=
  if c.qkind q = 1 && !c.qbad q then c.setWr q ((c.qwr q + m) % c.qslots q) else c

/-- What a pop of m elements waits for: a channel in with BUB = 0 (R158). -/
def Core.popNeed (c : Core) (q m : Nat) : List QueueNeed :=
  if c.qkind q = 2 && !c.qbub q && m ≠ 0 then [⟨q, m, false⟩] else []

/-- What a push of m elements waits for: credits of a channel out (R158). -/
def Core.pushNeed (c : Core) (q m : Nat) : List QueueNeed :=
  if c.qkind q = 3 && m ≠ 0 then [⟨q, m, true⟩] else []

/-- Does the condition hold now? -/
def Core.needMet (c : Core) (n : QueueNeed) : Bool :=
  if n.push then decide (n.m ≤ c.qwr n.q) else decide (n.m ≤ (c.chanIn n.q).length)

/-! ### Items (R470) -/

/-- The elements that an item of C bytes takes: ceil(C / e); one where the queue end has no element size. -/
def Core.itemElems (c : Core) (q C : Nat) : Nat :=
  if c.qkind q = 0 || c.qesize q = 0 then 1 else ceilDiv C (c.qesize q)

/-- The pop of one item: whether it is valid, and its C bytes; an unbound end counts one pop (R151, R470). -/
def Core.popItem (c : Core) (p q C : Nat) : Bool × List Byte × Core :=
  if c.noPop q then (false, List.replicate C 0, c.ev 0x0B q 1)
  else
    let r := c.popBytes p q (c.itemElems q C) C
    (r.1.all (fun e => e.valid), padTo 0 C ((r.1.map (fun e => e.bytes)).flatten), r.2)

/-- The elements that carry an item (R470): its bytes in order, the rest zero. -/
def Core.itemCells (c : Core) (q C : Nat) (valid : Bool) (bs : List Byte) : List Elem :=
  let e := c.qesize q
  let k := c.itemElems q C
  let all := padTo 0 (k * e) bs
  (List.range k).map (fun i => { valid := valid, bytes := slice all (i * e) e })

/-- The push of one item. -/
def Core.pushItem (c : Core) (p q C : Nat) (valid : Bool) (bs : List Byte) : Core :=
  if c.noPush q then c.ev 0x0B q 1 else c.pushElems p q (c.itemCells q C valid bs)

/-- The push of one item by a command that SKIP turned off (R84, R137): invalid elements into a channel, a move of
the write position of a ring, nothing elsewhere. -/
def Core.skipItem (c : Core) (p q C : Nat) : Core :=
  match c.qkind q with
  | 1 => c.skipSlots q (c.itemElems q C)
  | 3 => c.pushElems p q (c.itemCells q C false [])
  | _ => c

/-! ### Byte streams (R106) -/

/-- The elements that a stream pops to have `need` bytes when `left` remain from the last pop. -/
def Core.streamElems (c : Core) (q need left : Nat) : Nat :=
  if c.qesize q = 0 then 0 else ceilDiv (need - left) (c.qesize q)

/-- `need` bytes of a queue end's byte stream, each with the validity of its element; what the last element holds
beyond them is left for the next beat. -/
def Core.stream (c : Core) (p q need : Nat) (left : List (Bool × Byte)) :
    List (Bool × Byte) × List (Bool × Byte) × Core :=
  if need = 0 then ([], left, c)
  else if c.noPop q then (List.replicate need (false, 0), left, c.ev 0x0B q 1)
  else
    let m := c.streamElems q need left.length
    let r := if m = 0 then ([], c) else c.popElems p q m
    let all := left ++ (r.1.map (fun e => e.bytes.map (fun b => (e.valid, b)))).flatten
    (all.take need, all.drop need, r.2)

/-! ### Conditions and values (R188, R197, R199) -/

/-- The operand that HALF selects (R188). -/
def halfValue (h : Half) (w : Word) : Int :=
  match h with
  | .all => w.toInt
  | .low => toSigned 32 (fld w 31 0)
  | .high => toSigned 32 (fld w 63 32)

/-- Does the condition hold of the operand (R188)? -/
def condHolds (k : Cond) (v : Int) : Bool :=
  match k with
  | .always => true
  | .eqz => v == 0
  | .nez => v != 0
  | .ltz => decide (v < 0)
  | .gez => decide (v ≥ 0)
  | .lez => decide (v ≤ 0)
  | .gtz => decide (v > 0)

/-- A SKIP or END test on the scalar value visible in the cycle. -/
def Core.test (c : Core) (t : Test) : Bool := condHolds t.cond (halfValue t.half (c.s t.sr))

/-- Operand b of scalar arithmetic (R197). -/
def Core.qxVal (c : Core) (b : QxVal) : Word :=
  match b with
  | .imm v => v.signExtend 64
  | .reg r => c.s r

/-- The increment or target of the QS format (R199). -/
def Core.syncVal (c : Core) (v : SyncVal) : Nat :=
  match v with
  | .imm w => w.toNat
  | .reg r => fld (c.s r) 31 0

end Sys2Proof.Machine
end

