-- ==== Sys2Proof/Machine/VxLanes.lean ====
section
/-! DEFINITION. What the VX computes in one lane and in one beat (spec/04 R113-R137): pure functions of the operand
bits, the mask and the auxiliary values. -/
namespace Sys2Proof.Machine

/-! ### Lane types (R67, R72) -/

/-- Lane width in bytes; a block format has none. -/
def tyWidth : VxType → Nat
  | .fp32 => 4 | .fp16 => 2 | .bf16 => 2 | .int32 => 4 | .int16 => 2 | .int8 => 1
  | .fx32 => 4 | .fx64 => 8 | .raw128 => 16 | .bq1 => 0 | .bq2 => 0 | .bq4 => 0 | .bq8 => 0

/-- The floating-point format of a type. -/
def tyFloat : VxType → Option FFmt
  | .fp32 => some .fp32 | .fp16 => some .fp16 | .bf16 => some .bf16 | _ => none

def tyInt : VxType → Bool
  | .int32 => true | .int16 => true | .int8 => true | _ => false

def tyFx : VxType → Bool
  | .fx32 => true | .fx64 => true | _ => false

/-- The block format of a type. -/
def tyBlock : VxType → Option BqFmt
  | .bq1 => some .bq1 | .bq2 => some .bq2 | .bq4 => some .bq4 | .bq8 => some .bq8 | _ => none

def tyFp (t : VxType) : Bool := (tyFloat t).isSome
/-- FP, INT or FX. -/
def tyNum (t : VxType) : Bool := tyFp t || tyInt t || tyFx t
/-- Every lane type, blocks excluded. -/
def tyLane (t : VxType) : Bool := tyWidth t != 0

/-- The combinations of opcode and types of R113; any other is a reserved encoding. -/
def vxLegal (op : VxOp) (c : VxCmd) : Bool :=
  match op with
  | .add => tyNum c.ty || c.ty == .raw128
  | .sub => tyNum c.ty || c.ty == .raw128
  | .mul => tyNum c.ty
  | .mulh => tyInt c.ty
  | .adds => tyInt c.ty
  | .subs => tyInt c.ty
  | .fmaVs => tyFp c.ty
  | .fmaSv => tyFp c.ty
  | .fmaVvd => tyFp c.ty
  | .min => tyNum c.ty
  | .max => tyNum c.ty
  | .abs => tyNum c.ty
  | .neg => tyNum c.ty
  | .cmp _ => tyNum c.ty && decide (c.imm ≤ 2)
  | .shl => tyInt c.ty
  | .shr => tyInt c.ty
  | .sra => tyInt c.ty
  | .cvt => tyNum c.ty && tyNum c.dty
  | .transc _ => tyFp c.ty
  | .sred => tyLane c.ty && c.ty != .raw128
  | .unpack => (tyBlock c.ty).isSome && tyFp c.dty
  | .packBq => c.ty == .int8 && (tyBlock c.dty).isSome
  | .qpack => tyFp c.ty
  | .cvtr => c.ty == .raw128 && (tyFp c.dty || c.dty == .fx32)
  | _ => tyLane c.ty

/-- Lanes per beat (R107): 128 over the wider of source and destination lane; the block opcodes as R129-R136 state. -/
def vxLanes (op : VxOp) (c : VxCmd) : Nat :=
  match op with
  | .unpack => 128 / tyWidth c.dty
  | .packBq => 128
  | .cvtr => 8
  | .cvt => 128 / max (tyWidth c.ty) (tyWidth c.dty)
  | _ => 128 / max 1 (tyWidth c.ty)

/-- Cycles per beat before masks (R113). -/
def vxCpb (op : VxOp) (c : VxCmd) : Nat :=
  match op with
  | .fmaVvd => 2
  | .transc _ => if c.ty = .fp32 then 4 else 2
  | .qpack => if c.ty = .fp32 then 1 else 2
  | _ => 1

/-- DEP of R113. -/
def vxDep (op : VxOp) (c : VxCmd) : Nat :=
  match op with
  | .mov => 1 | .sel => 1 | .and => 1 | .or => 1 | .xor => 1 | .andn => 1 | .shl => 1 | .shr => 1 | .sra => 1
  | .sred => 1
  | .add => if tyFp c.ty then 4 else 2
  | .sub => if tyFp c.ty then 4 else 2
  | .mul => if tyInt c.ty then 3 else 4
  | .mulh => 3 | .perm => 3 | .cvt => 3 | .packBq => 3
  | .fmaVs => 5 | .fmaSv => 5 | .fmaVvd => 5
  | .unpack => 4 | .cvtr => 6 | .qpack => 10
  | .transc _ => if c.ty = .fp32 then 14 else 10
  | _ => 2

/-- Does the opcode read a source B stream? -/
def vxReadsB (op : VxOp) : Bool :=
  match op with
  | .add => true | .sub => true | .mul => true | .mulh => true | .adds => true | .subs => true
  | .fmaVs => true | .fmaSv => true | .fmaVvd => true | .min => true | .max => true | .cmp _ => true
  | .sel => true | .and => true | .or => true | .xor => true | .andn => true | .shl => true | .shr => true
  | .sra => true | .perm => true | _ => false

/-- Does the opcode heed MQ (R109)? -/
def vxMasked (op : VxOp) : Bool :=
  match op with
  | .sred => false | .unpack => false | .packBq => false | .qpack => false | .cvtr => false | _ => true

/-! ### One lane -/

/-- A clamped fixed- or integer-point result. -/
def clampRes (w : Nat) (i : Int) : LaneRes :=
  let c := clampSigned w i
  { bits := ofSigned w c.1, sat := c.2 }

/-- RNE of n / 2^f. -/
def rneShift (n : Int) (f : Nat) : Int := Dy.round .rne ⟨n, -(f : Int)⟩

/-- The lane result of an arithmetic, logic or shift opcode (R117, R119, R124): operands a and b, the third operand d
of the FMA forms, and the fraction width F of FX types. w is the lane width in bits. -/
def laneArith (op : VxOp) (t : VxType) (F a b d : Nat) : LaneRes :=
  let w := 8 * tyWidth t
  let ia := toSigned w a
  let ib := toSigned w b
  let plain (n : Nat) : LaneRes := { bits := n % 2 ^ w }
  match tyFloat t with
  | some f =>
      let x := f.read a
      let y := f.read b
      let z := f.read d
      let pick (p : Bool) : LaneRes :=
        if x.isPoison || y.isPoison then { bits := f.poison, poi := true }
        else if x.isNaN || y.isNaN then { bits := f.nan }
        else { bits := (if p then x else y).code f }
      let unary (v : FVal) : LaneRes :=
        if x.isPoison then { bits := f.poison, poi := true } else { bits := v.code f }
      match op with
      | .add => fadd f x y
      | .sub => fadd f x y.negate
      | .mul => fmul f x y
      | .fmaVs => fma f x y z
      | .fmaSv => fma f z x y
      | .fmaVvd => fma f x y z
      | .min => pick (!(y.lt x))
      | .max => pick (!(x.lt y))
      | .abs => unary x.abs
      | .neg => unary x.negate
      | .and => plain (nand a b)
      | .or => plain (nor a b)
      | .xor => plain (nxor a b)
      | .andn => plain (nand a (2 ^ w - 1 - b % 2 ^ w))
      | _ => plain a
  | none =>
      let fx := tyFx t
      match op with
      | .add => if fx then clampRes w (ia + ib) else plain (a + b)
      | .sub => if fx then clampRes w (ia - ib) else { bits := ofSigned w (ia - ib) }
      | .adds => clampRes w (ia + ib)
      | .subs => clampRes w (ia - ib)
      | .mul => if fx then clampRes w (rneShift (ia * ib) F) else { bits := ofSigned w (ia * ib) }
      | .mulh => { bits := ofSigned w (ia * ib / 2 ^ w) }
      | .min => plain (if ib < ia then b else a)
      | .max => plain (if ia < ib then b else a)
      | .abs => clampRes w ia.natAbs
      | .neg => clampRes w (-ia)
      | .shl => plain (if b % 256 ≥ w then 0 else a * 2 ^ (b % 256))
      | .shr => plain (a % 2 ^ w / 2 ^ (min (b % 256) w))
      | .sra => { bits := ofSigned w (ia / 2 ^ (min (b % 256) w)) }
      | .and => plain (nand a b)
      | .or => plain (nor a b)
      | .xor => plain (nxor a b)
      | .andn => plain (nand a (2 ^ w - 1 - b % 2 ^ w))
      | _ => plain a

/-- A comparison of one lane (R118): its truth, and whether a poisoned input made it unordered. -/
def laneCmp (p : Pred) (t : VxType) (a b : Nat) : Bool × Bool :=
  let w := 8 * tyWidth t
  let rel (lt eq un : Bool) : Bool :=
    match p with
    | .eq => !un && eq
    | .ne => un || !eq
    | .lt => !un && lt
    | .le => !un && (lt || eq)
    | .gt => !un && !lt && !eq
    | .ge => !un && !lt
    | .nlt => un || !lt
    | .nle => un || !(lt || eq)
    | .ngt => un || lt || eq
    | .nge => un || lt
  match tyFloat t with
  | some f =>
      let x := f.read a
      let y := f.read b
      (rel (x.ltNum y) (x.eqNum y) (x.isNaN || y.isNaN), x.isPoison || y.isPoison)
  | none => (rel (decide (toSigned w a < toSigned w b)) (decide (toSigned w a = toSigned w b)) false, false)

/-- CVT of one lane (R71, R120): source type with fraction width fs, destination type with fraction width fd. -/
def laneCvt (rm : Rm) (src dst : VxType) (fs fd a : Nat) : LaneRes :=
  let ws := 8 * tyWidth src
  let wd := 8 * tyWidth dst
  let fs' := if tyFx src then fs else 0
  let fd' := if tyFx dst then fd else 0
  match tyFloat src, tyFloat dst with
  | some f, some g => cvtFF g rm (f.read a)
  | some f, none => cvtFI wd fd' rm (f.read a)
  | none, some g => cvtDF g rm ⟨toSigned ws a, -(fs' : Int)⟩
  | none, none => cvtDI wd fd' rm ⟨toSigned ws a, -(fs' : Int)⟩

/-- A transcendental of one lane (R121-R123). -/
def laneTransc (fn : Transc) (t : VxType) (a : Nat) : LaneRes :=
  match tyFloat t with
  | some f => transc f fn (f.read a)
  | none => { bits := a }

/-- The scales and anchor of CVTR (R114, R136): the exact factor, or none where a scale is not finite or is poison. -/
def cvtrScale (px py : Word) : Option Dy :=
  let tw := FFmt.bf16.read (fld py 15 0)
  let ta := FFmt.bf16.read (fld py 31 16)
  if tw.isFin && ta.isFin then some ((tw.dy.mul ta.dy).scale (toSigned 11 (fld px 10 0))) else none

/-- The poison form of R93 in a drain format. -/
def poisonForm (t : VxType) : Nat :=
  match tyFloat t with
  | some f => f.poison
  | none => 0x80000000

/-- round_once of an exact value to FP32, FP16, BF16 or FX32 with fraction width F (R93). -/
def roundOnce (t : VxType) (F : Nat) (d : Dy) : LaneRes :=
  match tyFloat t with
  | some f => cvtDF f .rne d
  | none => cvtDI 32 F .rne d

/-- CVTR of one value with its status bits (R136). -/
def laneCvtr (t : VxType) (F : Nat) (scale : Option Dy) (ovf pzn : Bool) (r : Nat) : LaneRes :=
  match pzn, scale with
  | true, _ => { bits := poisonForm t, poi := true }
  | _, none => { bits := poisonForm t, poi := true }
  | false, some k =>
      let v := roundOnce t F (k.mul ⟨toSigned 128 r, 0⟩)
      { v with sat := v.sat || ovf }

/-! ### Beats -/

/-- The lanes of w bytes that a list of bytes holds. -/
def lanesOf (w : Nat) (bs : List Byte) : List Nat :=
  (List.range (bs.length / max 1 w)).map (fun i => natLE (slice bs (i * w) w))

/-- What one beat writes: one entry per byte of its destination, none where nothing is written, and what its lanes
add to the saturation and poison counts. -/
structure BeatOut where
  bytes : List (Option Byte)
  sat : Nat := 0
  poi : Nat := 0
deriving DecidableEq, Repr

/-- Mask bit i of a beat; with no mask every lane is active (R108). -/
def maskBit (mask : List Byte) (i : Nat) : Bool :=
  match mask with
  | [] => true
  | m => bitAt ((m.getD (i / 8) 0).setWidth 64) (i % 8)

/-- The bytes of one lane of the destination (R108): the result where the lane is active, zero or the old bytes where
it is not. -/
def laneBytes (w : Nat) (active mz : Bool) (old : List Byte) (i : Nat) (v : Nat) : List (Option Byte) :=
  if active then (bytesLE v w).map some
  else if mz || old.isEmpty then List.replicate w (some 0)
  else (padTo 0 w (slice old (i * w) w)).map some

/-- A beat of n lanes whose lane i has result `res i` (R108, R115). -/
def beatOf (w n : Nat) (mask : List Byte) (mz : Bool) (old : List Byte) (res : Nat → LaneRes) : BeatOut :=
  let l := (List.range n).map (fun i => (i, maskBit mask i, res i))
  { bytes := (l.map (fun x => laneBytes w x.2.1 mz old x.1 x.2.2.bits)).flatten,
    sat := (l.filter (fun x => x.2.1 && x.2.2.sat)).length,
    poi := (l.filter (fun x => x.2.1 && x.2.2.poi)).length }

/-- Output lane i of a shuffle of m lanes (R125). -/
def shufLane (op : VxOp) (imm m i : Nat) : Nat :=
  match op with
  | .shufXor => nxor i (imm % m)
  | .shufRot => (i + imm) % m
  | _ => imm % m

end Sys2Proof.Machine
end

