-- ==== Sys2Proof/Machine/Mx.lean ====
section
/-! DEFINITION. The matrix arrays of a core (spec/03): issue, the pops and exact accumulation of a step, and the drain
push by push. Each lane has a live accumulator, and one that drains stands with its command until it is pushed (R73,
R79). -/
namespace Sys2Proof.Machine

/-! ### Operand formats (R54, R74) -/

/-- The block formats of weights and activations; none for BH16. -/
def fpW : FmtPair → Option BqFmt
  | .bq1 _ _ => some .bq1 | .bq2 => some .bq2 | .bq4 => some .bq4 | .bq8 => some .bq8
  | .bq4x8 => some .bq4 | .bq8x4 => some .bq8 | .bh16 => none
def fpA : FmtPair → Option BqFmt
  | .bq1 _ _ => some .bq1 | .bq2 => some .bq2 | .bq4 => some .bq4 | .bq8 => some .bq8
  | .bq4x8 => some .bq8 | .bq8x4 => some .bq4 | .bh16 => none

/-- The BQ1 modes of the operands. -/
def fpWu : FmtPair → Bool
  | .bq1 u _ => u
  | _ => false
def fpAu : FmtPair → Bool
  | .bq1 _ u => u
  | _ => false

/-- Blocks per chunk (R74). -/
def fpBlocks : FmtPair → Nat
  | .bq1 _ _ => 8 | .bq2 => 4 | .bq4 => 2 | _ => 1

/-- Bytes of a weight chunk of one unit and of an activation chunk (R74). -/
def fpWBytes (f : FmtPair) : Nat :=
  match fpW f with
  | some b => b.size * fpBlocks f
  | none => 16
def fpABytes (f : FmtPair) : Nat :=
  match fpA f with
  | some b => b.size * fpBlocks f
  | none => 16

/-! ### Issue (R79, R80, R191) -/

def MxRun.periods (r : MxRun) : Nat := max 1 (r.steps / r.period)

/-- The arrays that the mask makes active. -/
def MxRun.arrays (r : MxRun) : List Nat := (List.range 4).filter (fun a => natBit r.cmd.mask a)

/-- The run that a command starts in running cycle rc, with the registers it reads then (R87, R191). -/
def mxRun (c : Core) (rc : Nat) (mode : MxMode) (cmd : MxCmd) (noop : Bool) : MxRun :=
  let w := c.p cmd.psd
  let d := fld w 39 20 + 1
  { mode := mode, cmd := cmd, steps := fld w 19 0 + 1, period := d, len := max d 16, c0 := rc,
    anchor := toSigned 11 (fld (c.p cmd.pa) 10 0), tws := c.p cmd.ptw, tas := c.p cmd.pta,
    fx := fld (c.p cmd.pf) 5 0, tag := c.seq.tag, done := 0, swaps := 0, hold := [], drainP := 0, drainK := 0, ovf := 0,
    poi := 0, noop := noop, unpred := [] }

/-- Does the command use, in array a, a register whose load still runs (R78)? -/
def usesLoading (c : Core) (rc : Nat) (mode : MxMode) (cmd : MxCmd) (a : Nat) : Bool :=
  match mode with
  | .os => false
  | .ws => decide (rc < c.wload.getD (2 * a + cmd.sel.toNat) 0)
  | .is => decide (rc < c.aload.getD (2 * a + cmd.sel.toNat) 0)

/-- Does a command that issues in running cycle rc come earlier than R80 allows after run q, which also drives array a? -/
def MxRun.tooSoon (q : MxRun) (rc a : Nat) : Bool := decide (rc < q.c0 + q.periods * q.len) && q.arrays.contains a

/-- Issue of an MX command. One issued earlier than P·L after another leaves the lanes that both drive unpredictable (R80);
one that uses a register being loaded (R78) or one whose S is no multiple of D (R191) those that it drives. -/
def mxIssue (c : Core) (rc : Nat) (mode : MxMode) (cmd : MxCmd) (noop : Bool) : Core :=
  let r := mxRun c rc mode cmd noop
  let bad := r.arrays.filter (fun a => r.steps % r.period != 0 || usesLoading c rc mode cmd a || c.mxs.any (fun q => q.tooSoon rc a))
  let olds := c.mxs.map (fun q => { q with unpred := q.unpred ++ r.arrays.filter (q.tooSoon rc) })
  { c with mxAt := rc + 1, mxs := olds ++ [{ r with unpred := bad }] }

/-! ### Steps (R77, R79, R83, R88) -/

/-- The step that issues in running cycle rc, if one does (R79). -/
def MxRun.stepAt (r : MxRun) (rc : Nat) : Option Nat :=
  let d := rc - r.c0
  if decide (r.c0 ≤ rc) && decide (d / r.len < r.periods) && decide (d % r.len < r.period)
  then some (d / r.len * r.period + d % r.len) else none

/-- Queue ends that step t pops: the weights, or the first step's register loads (R77, R78). -/
def mxPopsW (r : MxRun) (t : Nat) : Bool :=
  match r.mode with
  | .ws => r.cmd.ld && t == 0
  | _ => true
def mxPopsA (r : MxRun) (t : Nat) : Bool :=
  match r.mode with
  | .is => r.cmd.ld && t == 0
  | _ => true

/-- The channel pops of the step due in rc (R158, R470). -/
def mxNeeds (c : Core) (r : MxRun) (rc : Nat) : List QueueNeed :=
  match r.stepAt rc with
  | none => []
  | some t =>
      if r.noop || decide (rc < r.done) then []
      else
        (if mxPopsW r t then c.popNeed r.cmd.qw (c.itemElems r.cmd.qw (64 * (fpWBytes r.cmd.fp))) else []) ++
        (if mxPopsA r t then
          (r.arrays.map (fun a => c.popNeed (r.cmd.qa + a) (c.itemElems (r.cmd.qa + a) (fpABytes r.cmd.fp)))).flatten else [])

/-- Sidecar entries for blocks in order (R90): popped from queue end q through port p; an item at an unbound end is
invalid and counted. -/
def popSide (c : Core) (p q : Nat) (blocks : List (List Byte)) : List (List SideEntry) × Core :=
  blocks.foldl (fun (a : List (List SideEntry) × Core) b =>
    let r := (List.range (Header.ofNat (natLE (b.take 2))).takes).foldl (fun (x : List SideEntry × Core) _ =>
      let y := x.2.popItem p q 4
      (x.1 ++ [⟨y.1, natLE y.2.1⟩], y.2.2)) (([] : List SideEntry), a.2)
    (a.1 ++ [r.1], r.2)) (([] : List (List SideEntry)), c)

/-- The blocks of an operand of `n` chunks. -/
def opBlocks (f : Option BqFmt) (n : Nat) (bs : List Byte) : List (List Byte) :=
  match f with
  | some b => chunks b.size n bs
  | none => []

/-- The pop of an operand: its bytes and sidecar entries, or none where its item is invalid (R83, R90, R470). A block with
OCNT > 0 that is popped without a sidecar is poisoned in every step that uses it: the command that pops an operand, not a
later one that uses its register, says whether it has a sidecar (DEDUCED, log 48). -/
def popOperand (c : Core) (p q side C : Nat) (f : Option BqFmt) (hasSide : Bool) : Option OpReg × Core :=
  let r := c.popItem p q C
  if !r.1 then (none, r.2.2)
  else
    let bl := opBlocks f 512 r.2.1
    let s := if hasSide then popSide r.2.2 p side bl else (bl.map (fun _ => []), r.2.2)
    (some ⟨r.2.1, s.1, hasSide⟩, s.2)

/-- The blocks of an operand as their consumer reads them (R46, R60, R90). -/
def OpReg.blocks (o : OpReg) (f : Option BqFmt) : List Block :=
  (opBlocks f 512 o.bytes).zipIdx.map (fun x => Block.read x.1 o.hasSide (o.side.getD x.2 []))

/-- floor(y / 2^A) added to a 136-bit accumulator (R88). -/
def addTerm (anchor : Int) (acc : Nat) (y : Dy) : Nat := ((acc + (y.scale (-anchor)).floor) % 2 ^ 136).toNat

/-- The tensor-scale comparison of one operand (R56, R97): the select first seen, and whether this one differs. -/
def tsSee (first : Option Nat) (ts : Nat) : Option Nat × Bool :=
  match first with
  | none => (some ts, false)
  | some x => (some x, x != ts)

/-- One block position of one lane (R88, R96): the accumulator afterwards, and whether either select mismatched. -/
def laneBlock (fw fa : BqFmt) (wu au : Bool) (anchor : Int) (w x : Block) (a : Acc) : Acc × Bool × Bool :=
  let sw := tsSee a.tw w.hdr.ts
  let sx := tsSee a.ta x.hdr.ts
  let bad := w.poisoned || x.poisoned || w.badOutlier || x.badOutlier || sw.2 || sx.2
  let out := (List.range 32).filter (fun i => (w.outlier i).isSome || (x.outlier i).isSome)
  let p := if w.hdr.e = 0 || x.hdr.e = 0 then 0
    else ((List.range 32).filter (fun i => !out.contains i)).foldl
      (fun (s : Int) i => s + w.codeVal fw wu i * x.codeVal fa au i) 0
  let v0 := addTerm anchor a.val ⟨p, (w.hdr.e : Int) + x.hdr.e - 254⟩
  let v := out.foldl (fun v i => addTerm anchor v ((w.elem fw wu i).dy.mul (x.elem fa au i).dy)) v0
  ({ val := v, poison := a.poison || bad, tw := sw.1, ta := sx.1 }, sw.2, sx.2)

/-- One lane's step over the chunk's block positions: the accumulator, and the positions whose weight or activation
select mismatched. -/
def laneStep (fp : FmtPair) (anchor : Int) (ws xs : List Block) (a : Acc) : Acc × List Nat × List Nat :=
  match (fpW fp), (fpA fp) with
  | some fw, some fa =>
      ((List.zip ws xs).zipIdx).foldl (fun (st : Acc × List Nat × List Nat) p =>
        let r := laneBlock fw fa (fpWu fp) (fpAu fp) anchor p.1.1 p.1.2 st.1
        (r.1, if r.2.1 then st.2.1 ++ [p.2] else st.2.1, if r.2.2 then st.2.2 ++ [p.2] else st.2.2)) (a, [], [])
  | _, _ => (a, [], [])

/-- One lane's step on BH16 chunks (R53, R89, R96). -/
def laneStepBh (anchor : Int) (w x : List Byte) (a : Acc) : Acc :=
  (List.range 8).foldl (fun (a : Acc) i =>
    let p := FFmt.bf16.read (natLE (slice w (2 * i) 2))
    let q := FFmt.bf16.read (natLE (slice x (2 * i) 2))
    if p.isFin && q.isFin then { a with val := addTerm anchor a.val (p.dy.mul q.dy) }
    else { a with poison := true }) a

def accKey (a u : Nat) : Nat := a * 64 + u
def Acc.dflt (_ : Nat) : Acc := {}

/-- The live accumulator of lane (a, u). -/
def Core.getAcc (c : Core) (a u : Nat) : Acc := Tab.get Acc.dflt c.acc (accKey a u)
def Core.setAcc (c : Core) (a u : Nat) (x : Acc) : Core := { c with acc := Tab.set Acc.dflt c.acc (accKey a u) x }

/-- A table of lanes without those of the given arrays. -/
def dropArrays (arrays : List Nat) (t : Tab Acc) : Tab Acc := t.filter (fun e => !arrays.contains (e.1 / 64))

/-- Array a takes a step with valid operands: what the step adds to each lane enters the live accumulators nine cycles
later (R79, R81); the tensor-scale selects first seen are those of the period's steps so far (R56, R97). The weight blocks
(as unit * 8 + position) and activation blocks whose select mismatched come back with the core. -/
def arrayStep (c : Core) (rc : Nat) (r : MxRun) (a : Nat) (w x : OpReg) : Core × List Nat × List Nat :=
  let fp := r.cmd.fp
  let wb := w.blocks (fpW fp)
  let xb := x.blocks (fpA fp)
  let n := fpBlocks fp
  let lanes : List (Acc × List Nat × List Nat) := (List.range 64).map (fun u =>
    let f := Tab.get Acc.dflt c.form (accKey a u)
    match fp with
    | .bh16 => (laneStepBh r.anchor (slice w.bytes (16 * u) 16) x.bytes f, [], [])
    | _ => laneStep fp r.anchor (slice wb (n * u) n) xb f)
  let form := lanes.zipIdx.foldl (fun t p => Tab.set Acc.dflt t (accKey a p.2) { p.1.1 with val := 0, poison := false }) c.form
  ({ c with form := form, prods := c.prods ++ [{ due := rc + 9, arr := a, lanes := lanes.map (fun p => p.1) }] },
   (lanes.zipIdx.map (fun p => p.1.2.1.map (fun j => p.2 * 8 + j))).flatten, (lanes.map (fun p => p.2.2)).flatten)

/-- The loads of a first step (R78): of the registers of the arrays that the mask names and of no other (R76; DEDUCED,
log 48). -/
def loadRegs (sel : Nat) (arrays : List Nat) (o : Option OpReg) (regs : List (Option OpReg)) : List (Option OpReg) :=
  arrays.foldl (fun l a => l.set (2 * a + (1 - sel)) o) regs
def loadTimes (sel : Nat) (arrays : List Nat) (till : Nat) (l : List Nat) : List Nat :=
  arrays.foldl (fun l a => l.set (2 * a + (1 - sel)) till) l

/-- The operands of step t in the order of the ports: the weights of each active array, then the activations. A command
whose MASK is 0 still pops its weight slice with the entries that it names (R76 speaks of arrays only; DESIGN CHOICE,
log 48). -/
def mxOperands (c : Core) (rc : Nat) (r : MxRun) (t : Nat) : List (Nat × Option OpReg × Option OpReg) × Core :=
  let fp := r.cmd.fp
  let sel := r.cmd.sel.toNat
  let pw := if mxPopsW r t then popOperand c 0 r.cmd.qw (r.cmd.qw + 1) (64 * fpWBytes fp) (fpW fp) r.cmd.wsc else (none, c)
  let c := if r.mode = .ws && r.cmd.ld && t == 0 then
      { pw.2 with wreg := loadRegs sel r.arrays pw.1 pw.2.wreg, wload := loadTimes sel r.arrays (rc + 32) pw.2.wload }
    else pw.2
  r.arrays.foldl (fun (st : List (Nat × Option OpReg × Option OpReg) × Core) a =>
    let pa := if mxPopsA r t then
        popOperand st.2 (1 + a) (r.cmd.qa + a) (r.cmd.qa + 4 + a) (fpABytes fp) (fpA fp) r.cmd.asc else (none, st.2)
    let c := if r.mode = .is && r.cmd.ld && t == 0 then
        { pa.2 with areg := loadRegs sel [a] pa.1 pa.2.areg, aload := loadTimes sel [a] (rc + 4) pa.2.aload } else pa.2
    let w := if r.mode = .ws then c.wreg.getD (2 * a + sel) none else pw.1
    let x := if r.mode = .is then c.areg.getD (2 * a + sel) none else pa.1
    (st.1 ++ [(a, w, x)], c)) (([] : List (Nat × Option OpReg × Option OpReg)), c)

/-- Blocks of an operand that count as format errors (R471): malformed, or with a select that mismatched, named as
unit * 8 + position. -/
def badBlocks (f : Option BqFmt) (n : Nat) (o : OpReg) (mism : List Nat) : List Nat :=
  ((o.blocks f).zipIdx.filter (fun b => b.1.malformed || mism.contains (b.2 / n * 8 + b.2 % n))).map (fun b => b.2)

/-- Step t of a run in its cycle (R77, R78, R83, R88, R90, R471). A weight block counts once in a step however many arrays
use it; registers of several arrays with equal contents hold the same blocks (log 48). -/
def mxStep (c : Core) (rc : Nat) (r : MxRun) (t : Nat) : Core :=
  let fp := r.cmd.fp
  let n := fpBlocks fp
  let c := if t % r.period = 0 then { c with form := dropArrays r.arrays c.form } else c
  let ops := mxOperands c rc r t
  let run := ops.1.foldl (fun (st : Core × List (OpReg × List Nat) × Nat) ax =>
    match ax.2.1, ax.2.2 with
    | some w, some x =>
        let q := arrayStep st.1 rc r ax.1 w x
        let old := (st.2.1.find? (fun e => e.1 == w)).elim [] (fun e => e.2)
        (q.1, (w, old ++ badBlocks (fpW fp) n w q.2.1) :: st.2.1.filter (fun e => e.1 != w),
          st.2.2 + (badBlocks (fpA fp) n x q.2.2).length)
    | _, _ => (st.1.ev 0x04 ax.1 1, st.2)) (ops.2, [], 0)
  (run.1.ev 0x07 0 ((run.2.1.map (fun e => e.2.eraseDups.length)).foldl (· + ·) run.2.2)).blame c.faults.length 0 r.tag

/-- Every MX step of running cycle rc that has not been taken yet. -/
def mxSteps (c : Core) (rc : Nat) : Core :=
  let due : List MxRun := c.mxs.filter (fun r => decide (r.done ≤ rc) && (r.stepAt rc).isSome)
  let c := { c with mxs := c.mxs.map (fun r => if due.contains r then { r with done := rc + 1 } else r) }
  due.foldl (fun c r => match r.stepAt rc with
    | some t => if r.noop then c else mxStep c rc r t
    | none => c) c

/-! ### Live and draining accumulators (R73, R79, R85) -/

/-- The running cycle in which the drain of period p starts. -/
def MxRun.drainAt (r : MxRun) (p : Nat) : Nat := r.c0 + p * r.len + r.len + 9

/-- The drain of a run's next period starts: the live accumulators of its arrays become draining ones, and live ones at
zero take their place. -/
def mxSwap (c : Core) (r : MxRun) : Core :=
  let out : List Draining := r.arrays.map (fun a =>
    { period := r.swaps, arr := a, valid := natBit c.seen a, lanes := (List.range 64).map (c.getAcc a) })
  let c := { c with mxs := c.mxs.replace r { r with swaps := r.swaps + 1, hold := r.hold ++ out } }
  { c with acc := dropArrays r.arrays c.acc,
           seen := r.arrays.foldl (fun n a => if natBit n a then n - 2 ^ a else n) c.seen }

/-- A product enters the live accumulators of its array. -/
def Core.enterProd (c : Core) (p : MxProd) : Core :=
  p.lanes.zipIdx.foldl (fun (c : Core) x =>
    let a := c.getAcc p.arr x.2
    c.setAcc p.arr x.2 { val := (a.val + x.1.val) % 2 ^ 136, poison := a.poison || x.1.poison, tw := x.1.tw, ta := x.1.ta })
    { c with seen := nor c.seen (2 ^ p.arr) }

/-- What happens to the accumulators in running cycle rc: drains start, then products enter. A skipped command changes no
accumulator (R84). -/
def mxSettle (c : Core) (rc : Nat) : Core :=
  let c := (c.mxs.filter (fun r => !r.noop && decide (r.swaps < r.periods) && decide (r.drainAt r.swaps ≤ rc))).foldl mxSwap c
  let due := c.prods.filter (fun p => decide (p.due ≤ rc))
  due.foldl Core.enterProd { c with prods := c.prods.filter (fun p => decide (rc < p.due)) }

/-! ### Drain (R81, R82, R92-R98) -/

/-- A drained lane: its bits, ovf, and whether it drains in the poison form. -/
structure Drained where
  bits : Nat
  ovf : Bool
  poi : Bool
deriving DecidableEq, Repr

/-- The selected tensor scales' product, or none where one is not finite or is poison (R55, R57). -/
def accScale (r : MxRun) (a : Acc) : Option Dy :=
  let sel (w : Word) (t : Option Nat) : FVal :=
    match t with
    | some i => FFmt.bf16.read (fld w (16 * i + 15) (16 * i))
    | none => .fin false 1 0
  let tw := sel r.tws a.tw
  let ta := sel r.tas a.ta
  if tw.isFin && ta.isFin then some (tw.dy.mul ta.dy) else none

/-- V of R92, saturated to 128 bits, and whether it saturated. -/
def accValue (a : Acc) : Int × Bool := clampSigned 128 (toSigned 136 a.val)

/-- One lane drained to FP32, BF16, FP16, FX32 or RAW128 (R92, R93). -/
def drainLane (r : MxRun) (a : Acc) : Drained :=
  let v := accValue a
  let fmt (t : VxType) : Drained :=
    if a.poison then ⟨poisonForm t, false, true⟩
    else match accScale r a with
      | none => ⟨poisonForm t, false, true⟩
      | some k =>
          let x := roundOnce t r.fx (k.mul ⟨v.1, r.anchor⟩)
          ⟨x.bits, v.2 || x.sat, false⟩
  match r.cmd.ofmt with
  | .fp32 => fmt .fp32
  | .bf16 => fmt .bf16
  | .fp16 => fmt .fp16
  | .fx32 => fmt .fx32
  | _ => if a.poison then ⟨0, false, true⟩ else ⟨ofSigned 128 v.1, v.2, false⟩

/-- Thirty-two lanes drained to one BQ8 block (R94): its bytes, and each lane's flags. -/
def drainBlock (r : MxRun) (as : List Acc) : List Byte × List Drained :=
  let vals := as.map (fun a => match accScale r a with
    | some k => if a.poison then none else some (k.mul ⟨(accValue a).1, r.anchor⟩)
    | none => none)
  if vals.any (fun v => v.isNone) then
    (poisonBlock .bq8 r.cmd.ots, as.map (fun _ => ⟨0, false, true⟩))
  else
    let ds := vals.map (fun v => v.getD Dy.zero)
    let e := chooseE 127 (maxAbs ds)
    let codes := ds.map (fun d => if e = 0 then (0, false) else quantVal .bq8 false e d)
    (blockBytes .bq8 { e := e, ocnt := 0, pz := false, ts := r.cmd.ots } (codes.map (fun x => ofSigned 8 x.1)),
     List.zipWith (fun a x => ⟨ofSigned 8 x.1, (accValue a).2 || x.2, false⟩) as codes)

/-- Bytes of one drained lane. -/
def outBytes : OutFmt → Nat
  | .fp32 => 4 | .fx32 => 4 | .bf16 => 2 | .fp16 => 2 | .raw128 => 16 | .bq8 => 1

/-- Pushes of a drain, and the running cycle of push k of period p (R79, R81). -/
def MxRun.pushes (r : MxRun) : Nat := if r.cmd.ofmt = .bq8 then 2 else 16
def MxRun.pushAt (r : MxRun) (p k : Nat) : Nat := r.drainAt p + (if r.cmd.ofmt = .bq8 then 8 * k + 8 else k)

/-- The running cycle of a run's next push. -/
def MxRun.nextPush (r : MxRun) : Nat := r.pushAt r.drainP r.drainK

/-- The run whose next push is due first, the older of two, if it is due. -/
def mxDueRun (c : Core) (rc : Nat) : Option MxRun :=
  c.mxs.foldl (fun (b : Option MxRun) q =>
    if rc < q.nextPush then b
    else match b with
      | none => some q
      | some x => if q.nextPush < x.nextPush then some q else some x) none

/-- Items that the next push sends for one array: queue end and bytes (R82, R95). -/
def mxItems (r : MxRun) (a : Nat) : List (Nat × Nat) :=
  let main := (r.cmd.qo + a, if r.cmd.ofmt = .bq8 then 34 else 4 * outBytes r.cmd.ofmt)
  if r.cmd.ofmt = .raw128 && r.drainK = 15 then [main, (r.cmd.qo + 4 + a, 16)] else [main]

/-- The channel pushes of the next push (R158). -/
def mxPushNeeds (c : Core) (r : MxRun) : List QueueNeed :=
  ((r.arrays.map (mxItems r)).flatten.map (fun x => c.pushNeed x.1 (c.itemElems x.1 x.2))).flatten

/-- Sticky bits set in a W1C register of the core, noted for the rest of the die cycle: a write of 1 in the same cycle does
not clear them (R98). -/
def Core.stick (c : Core) (off bits : Nat) : Core :=
  { c.setReg off (c.reg off ||| BitVec.ofNat 64 bits) with
    sticky := Tab.set zeroN c.sticky off (nor (Tab.get zeroN c.sticky off) bits) }

/-- The register with the 1 bits of v cleared but for those that hardware has set in the cycle (R12, R98). -/
def Core.unstick (c : Core) (off : Nat) (v : Word) : Core :=
  c.setReg off (c.reg off &&& ~~~(v &&& ~~~(BitVec.ofNat 64 (Tab.get zeroN c.sticky off))))

/-- Array a's part of the next push: items pushed, sticky bits set, and the lanes' counts (R92-R98); where its lanes are
unpredictable, what they deliver and the flags that follow from it are free values. -/
def drainArray (c : Core) (r : MxRun) (a : Nat) : Core × Nat × Nat :=
  let hold := r.hold.find? (fun h => h.period == r.drainP && h.arr == a)
  let valid := hold.any (fun h => h.valid)
  let held (u : Nat) : Acc := (hold.elim [] (fun h => h.lanes)).getD u {}
  let width := if r.cmd.ofmt = .bq8 then 32 else 4
  let lanes := (List.range width).map (fun i => width * r.drainK + i)
  let accs := lanes.map held
  let d : List Byte × List Drained :=
    if r.cmd.ofmt = .bq8 then drainBlock r accs
    else
      let l := accs.map (drainLane r)
      ((l.map (fun x => bytesLE x.bits (outBytes r.cmd.ofmt))).flatten, l)
  let status := (List.range 64).foldl (fun (n : Nat) u =>
    let x := drainLane r (held u)
    n + (if x.poi then 2 ^ u else 0) + (if x.ovf then 2 ^ (64 + u) else 0)) 0
  let bs := if valid then d.1 else List.replicate d.1.length 0
  let un := valid && r.unpred.contains a
  let f := if un then c.freeBytes bs.length else (bs, c)
  let st := if un then f.2.freeBytes 16 else (bytesLE status 16, f.2)
  let fl := if un then st.2.freeBytes width else ([], st.2)
  let flags : List Drained := if un then fl.1.map (fun b => ⟨0, natBit b.toNat 0 && !natBit b.toNat 1, natBit b.toNat 1⟩) else d.2
  let c := (mxItems r a).zipIdx.foldl (fun c x =>
    c.pushItem 5 x.1.1 x.1.2 valid (if x.2 = 0 then f.1 else if valid then st.1 else [])) fl.2
  if !valid then (c, 0, 0)
  else
    let bits (p : Drained → Bool) : Nat := (List.zip lanes flags).foldl (fun n x => if p x.2 then n + 2 ^ x.1 else n) 0
    let ob := bits (fun x => x.ovf)
    let pb := bits (fun x => x.poi)
    let on := (flags.filter (fun x => x.ovf)).length
    let pn := (flags.filter (fun x => x.poi)).length
    let c := (c.stick (0x800 + 8 * a) ob).stick (0x820 + 8 * a) pb
    ((c.ev 0x05 a on).ev 0x06 a pn, on, pn)

/-- The next push of the run (R81); the last push of the command schedules the SC addition and ends the run (R99). -/
def mxPush (c : Core) (r : MxRun) : Core :=
  let at_ := r.pushAt r.drainP r.drainK
  let st := r.arrays.foldl (fun (s : Core × Nat × Nat) a =>
    if r.noop then ((mxItems r a).foldl (fun c x => c.skipItem 5 x.1 x.2) s.1, s.2)
    else
      let x := drainArray s.1 r a
      (x.1, s.2.1 + x.2.1, s.2.2 + x.2.2)) (c, 0, 0)
  let lastK := decide (r.drainK + 1 = r.pushes)
  let r' := { r with drainP := if lastK then r.drainP + 1 else r.drainP, drainK := if lastK then 0 else r.drainK + 1,
                     hold := if lastK then r.hold.filter (fun h => h.period != r.drainP) else r.hold,
                     ovf := r.ovf + st.2.1, poi := r.poi + st.2.2 }
  let c := st.1
  if r'.drainP = r.periods then
    let c := { c with mxs := c.mxs.erase r }
    match r.cmd.sc with
    | some s => if r.noop then c else { c with late := c.late ++ [⟨at_ + 1, r.c0, .scMx s r'.ovf r'.poi⟩] }
    | none => c
  else { c with mxs := c.mxs.replace r r' }

end Sys2Proof.Machine
end

