-- ==== Sys2Proof/Machine/Flags.lean ====
section
/-! DEFINITION. Every flag computation that several commands share: event counters (R446, R447), the status views of a
core (R150, R183) and what a core's step hands to the die: events, elements, credits and faults. -/
namespace Sys2Proof.Machine

/-! ### Event counters (R446, R447) -/

/-- A counter after n events of one source: it adds them mod 2^48 and notes a wrap, if it is enabled and selects the
event and its instance, or instance 63 for all. -/
def countWord (w : Word) (e : Ev) : Word :=
  let sel := fld w 59 48
  if bitAt w 63 && sel / 64 == e.event && (sel % 64 == e.inst || sel % 64 == 63) then
    let c := fld w 47 0 + e.n
    let w := setFld w 47 0 c
    if c ≥ 2 ^ 48 then setBit w 62 true else w
  else w

/-- The counters at `offs` after an event; one that nothing has written is not enabled. -/
def countAll (d : Nat → Word) (regs : Tab Word) (offs : List Nat) (e : Ev) : Tab Word :=
  offs.foldl (fun (t : Tab Word) o => match Tab.find t o with
    | some w => Tab.set d t o (countWord w e)
    | none => t) regs

def coreEvc : List Nat := (List.range 8).map (fun i => 0x1800 + 8 * i)
def dieEvc (d : Nat) : List Nat := (List.range 32).map (fun i => cdOff d (0x4000 + 8 * i))
def hubEvc : List Nat := (List.range 32).map (fun i => 0x3000 + 8 * i)

/-- Core counters take core events; die counters core and die events of their die; hub counters every event. -/
def State.count (s : State) (n : EvNote) : State :=
  let s := match n.core with
    | some key =>
        let c := s.coreAt key
        s.setCoreAt key { c with regs := countAll coreRegReset c.regs coreEvc n.ev }
    | none => s
  let s := match n.die with
    | some d => { s with regs := countAll regReset s.regs (dieEvc d) n.ev }
    | none => s
  { s with regs := countAll regReset s.regs hubEvc n.ev }

/-- The events of the die cycle that ends are counted: a write of a counter in the cycle comes before them (R446). -/
def State.countEvents (s : State) : State := { s.evs.foldl State.count s with evs := [] }

def State.noteCore (s : State) (key event inst n : Nat) : State :=
  if n = 0 then s else { s with evs := s.evs ++ [⟨some key, some (key / 17 / 12), ⟨event, inst, n⟩⟩] }
def State.noteDie (s : State) (d event inst n : Nat) : State :=
  if n = 0 then s else { s with evs := s.evs ++ [⟨none, some d, ⟨event, inst, n⟩⟩] }
def State.noteHub (s : State) (event inst n : Nat) : State :=
  if n = 0 then s else { s with evs := s.evs ++ [⟨none, none, ⟨event, inst, n⟩⟩] }

/-! ### Views of a core (R150, R183) -/

/-- CORE.SEQ.STATE in running cycle rc. -/
def Core.seqState (c : Core) (rc : Nat) : Nat :=
  if !c.seq.run then 0
  else if c.stall.isSome then 2
  else if c.seq.next.isSome || decide (rc < c.seq.k0) then 3
  else 1

/-- CORE.SEQ: STATE, TMPL, GEN, TAG and KCYC, which saturates and is 0 while no template is current. -/
def Core.seqWord (c : Core) (rc : Nat) : Word :=
  let k := if c.seq.run then min (rc - c.seq.k0) 0xFFFFFFFF else 0
  BitVec.ofNat 64 (c.seqState rc * 2 ^ 62 + c.seq.tmpl * 2 ^ 56 + c.seq.gen * 2 ^ 48 + c.seq.tag * 2 ^ 32 + k)

/-- CORE.QB[n].W1: RD, or the elements waiting; WR, or the credits held. -/
def Core.qbWord (c : Core) (n : Nat) : Word :=
  let rd := if c.qkind n = 2 then (c.chanIn n).length else if c.qkind n = 1 then c.qrd n else 0
  let wr := if c.qkind n = 1 || c.qkind n = 3 then c.qwr n else 0
  BitVec.ofNat 64 (wr * 2 ^ 32 + rd)

/-- Is a bake running or queued on the core? -/
def Core.hasBake (c : Core) : Bool :=
  c.seq.run || c.fifo.any (fun m => match m with | .launch _ _ => true | .patch _ => false)

/-! ### Travel times (R206-R208) -/

/-- MAX and MIN of an entry of the travel-time table. -/
def ccOff (d a b : Nat) : Nat := 0x200100 + 4 * (d * 144 + a * 12 + b)
def ddOff (a b : Nat) : Nat := 0x200C00 + 4 * (a * 4 + b)
def drrOff (d m : Nat) : Nat := 0x200C40 + 4 * (d * 8 + m)
def drwOff (d m : Nat) : Nat := 0x200CC0 + 4 * (d * 8 + m)
def mmOff (i j : Nat) : Nat := 0x201000 + 4 * (i * 64 + j)
def State.tmax (s : State) (off : Nat) : Nat := s.fld off 31 16
def State.tmin (s : State) (off : Nat) : Nat := s.fld off 15 0

/-- OFF of a cluster (R207). -/
def State.relOff (s : State) (d k : Nat) : Nat := s.fld (0x200040 + d * 12 + k) 2 0

/-! ### Die-cycle numbers (R203, R316) -/

/-- The number of the die cycle in progress: that of the tick's first, and those that have passed since. -/
def State.cycle (s : State) : Nat := s.dcy + (s.tickLen - 1 - s.left)

/-! ### What a core's step hands on -/

/-- An element or a credit leaves core u of key `key` in the die cycle in progress (R155-R157). -/
def State.sendOut (s : State) (key : Nat) (u : CoreId) (gr gen : Nat) (o : Out) : State :=
  let me := s.unitOf u
  match o with
  | .credit q peer pq m =>
      { s with credits := s.credits ++ [{ due := s.now + 2, die := u.die, unit := peer, q := pq, from_ := me, fromQ := q, m := m }] }
  | .push q peer pq es =>
      let put (k : Nat) : State :=
        let due := s.now + s.tmax (ccOff u.die u.cluster k)
        { s with flights := s.flights ++ es.map (fun e =>
          { due := due, die := u.die, srcUnit := me, srcQ := q, dst := peer, dstQ := pq, elem := e, group := gr, gen := gen }) }
      match UnitForm.ofId peer with
      | .core m d k l => if s.answers m && d == u.die && s.hasCore ⟨d, k, l⟩ then put k else s.noteCore key 0x0C 0 es.length
      | .cluster m d k => if s.answers m && d == u.die then put k else s.noteCore key 0x0C 0 es.length
      | _ => s.noteCore key 0x0C 0 es.length

/-- A step of the core of a key: its events, elements, credits and faults go to the module's. -/
def State.atCore (s : State) (key : Nat) (f : Core → Core) : State :=
  let c := f (s.coreAt key)
  let u := (s.idOf key).getD ⟨key / 17 / 12, key / 17 % 12, 0⟩
  let s1 := s.setCoreAt key { c with evs := [], outs := [], faults := [] }
  let s2 := { s1 with evs := s1.evs ++ c.evs.map (fun e => ⟨some key, some (key / 17 / 12), e⟩),
                      raised := s1.raised ++ c.faults.map (fun e => { e with unit := s.unitOf u }) }
  c.outs.foldl (fun s o => s.sendOut key u c.seq.group c.seq.gen o) s2

end Sys2Proof.Machine
end

