-- ==== Sys2Proof/Machine/Units.lean ====
section
/-! DEFINITION. Units and groups (spec/01): group descriptors, the cores that a unit reaches with their member chains
(R18, R31), which units exist (R22), the split of an element stream (R32, R33), namespaces (R34), the logical unit map
(R41) and write locks of descriptors (R26). -/
namespace Sys2Proof.Machine

/-! ### Descriptors (R24, R25) -/

def gdOff (i w : Nat) : Nat := 0x100000 + 32 * i + 8 * w
def gmOff (k : Nat) : Nat := 0x120000 + 4 * k
def State.gdV (s : State) (i : Nat) : Bool := s.fld (gdOff i 0) 63 63 == 1
def State.gdSplit (s : State) (i : Nat) : Nat := s.fld (gdOff i 0) 62 60
def State.gdDepth (s : State) (i : Nat) : Nat := s.fld (gdOff i 0) 59 56
def State.gdGen (s : State) (i : Nat) : Nat := s.fld (gdOff i 0) 55 48
def State.gdPmask (s : State) (i : Nat) : Nat := s.fld (gdOff i 0) 47 32
def State.gdMbase (s : State) (i : Nat) : Nat := s.fld (gdOff i 0) 31 16
def State.gdMcount (s : State) (i : Nat) : Nat := s.fld (gdOff i 0) 15 0
def State.gdGran (s : State) (i : Nat) : Nat := s.fld (gdOff i 1) 52 32
def State.gdRowlen (s : State) (i : Nat) : Nat := s.fld (gdOff i 1) 31 16
def State.gdHome (s : State) (i : Nat) : UnitId := BitVec.ofNat 32 (s.fld (gdOff i 2) 63 32)
def State.gdNsbase (s : State) (i : Nat) : Nat := s.fld (gdOff i 2) 31 16
def State.gdNssize (s : State) (i : Nat) : Nat := s.fld (gdOff i 2) 15 0
def State.gdMembers (s : State) (i : Nat) : List UnitId :=
  (List.range (s.gdMcount i)).map (fun k => BitVec.ofNat 32 (s.fld (gmOff (s.gdMbase i + k)) 31 0))

/-- NMOD, the modules of the installation (R207). -/
def State.nmod (s : State) : Nat := s.fld 0x200000 39 32

/-! ### Which units exist, and what they reach (R18, R22, R31) -/

/-- The logical slots that a cluster has: those that R37 gives a physical core. Every module of the installation has
the grade of this one (R4), so a cluster of another module is taken to have as many slots as it. -/
def State.slotsOf (s : State) (d k : Nat) : Nat := (unfused (s.reg (clOff d k 0))).length

/-- Does a UnitID address a unit (R22)? -/
def State.addresses (s : State) (u : UnitId) : Bool :=
  match UnitForm.ofId u with
  | .core m d k l =>
      if s.answers m then s.hasCore ⟨d, k, l⟩ else decide (m < s.nmod) && decide (l < s.slotsOf d k)
  | .cluster m _ _ => s.answers m || decide (m < s.nmod)
  | .die m _ => s.answers m || decide (m < s.nmod)
  | .module m => s.answers m || decide (m < s.nmod)
  | .group i => s.gdV i
  | .bad => false

/-- The children of a unit: its enabled children in ascending order for a physical path, its members for a group. -/
def State.children (s : State) (u : UnitId) : List UnitId :=
  match UnitForm.ofId u with
  | .core _ _ _ _ => []
  | .cluster m d k => (List.range (s.slotsOf d k)).map (fun l => UnitForm.toId (.core m d k l))
  | .die m d => (List.range 12).map (fun k => UnitForm.toId (.cluster m d k))
  | .module m => (List.range 4).map (fun d => UnitForm.toId (.die m d))
  | .group i => if s.gdV i then s.gdMembers i else []
  | .bad => []

/-- Does a logical core of this module lie in the maps, not kept out by the starter's UNITMAP (R40, R409)? -/
def State.mapped (s : State) (u : CoreId) : Bool := !natBit s.boot.offMap (192 * u.die + 16 * u.cluster + u.slot)

/-- The core-form UnitIDs that a unit reaches, each with its member chain, innermost index first. Six levels lie at
most between a unit and a core (R24). A core that UNITMAP keeps out of every map is reached by none. -/
def State.reach (s : State) : Nat → UnitId → List (UnitId × List Nat)
  | 0, u => match UnitForm.ofId u with
      | .core m d k l => if s.answers m && !s.mapped ⟨d, k, l⟩ then [] else [(u, [])]
      | _ => []
  | f + 1, u => match UnitForm.ofId u with
      | .core m d k l => if s.answers m && !s.mapped ⟨d, k, l⟩ then [] else [(u, [])]
      | _ => ((s.children u).zipIdx.map (fun c =>
          (s.reach f c.1).map (fun r => (r.1, r.2 ++ [c.2])))).flatten

/-- The logical core of this module that a core-form UnitID names, if it exists. -/
def State.localCore (s : State) (u : UnitId) : Option CoreId :=
  match UnitForm.ofId u with
  | .core m d k l => if s.answers m && s.hasCore ⟨d, k, l⟩ then some ⟨d, k, l⟩ else none
  | _ => none

/-- The cores of this module that a unit reaches, with their member chains. -/
def State.reached (s : State) (u : UnitId) : List (CoreId × List Nat) :=
  (s.reach 6 u).filterMap (fun r => (s.localCore r.1).map (fun c => (c, r.2)))

/-- Is core u among those that the unit reaches? Answered from the physical path downwards, without listing every
core of a physical-path unit. -/
def State.chainTo (s : State) (u : CoreId) : Nat → UnitId → Option (List Nat)
  | 0, x => match UnitForm.ofId x with
      | .core m d k l => if s.answers m && u == ⟨d, k, l⟩ && s.mapped u then some [] else none
      | _ => none
  | f + 1, x => match UnitForm.ofId x with
      | .core m d k l => if s.answers m && u == ⟨d, k, l⟩ && s.mapped u then some [] else none
      | .cluster m d k => if s.answers m && u.die == d && u.cluster == k && s.mapped u then some [u.slot] else none
      | .die m d => if s.answers m && u.die == d && s.mapped u then some [u.slot, u.cluster] else none
      | .module m => if s.answers m && s.mapped u then some [u.slot, u.cluster, u.die] else none
      | .group i => if s.gdV i then
          ((s.gdMembers i).zipIdx).findSome? (fun c => (s.chainTo u f c.1).map (fun l => l ++ [c.2])) else none
      | .bad => none

/-- Is core u among the cores of group g? -/
def State.inGroup (s : State) (g : Nat) (u : CoreId) : Bool :=
  (s.chainTo u 6 (UnitForm.toId (.group g))).isSome

/-- P63 for a member chain (R31): DEPTH, and the member indices from I0. -/
def p63Of (chain : List Nat) : Word :=
  BitVec.ofNat 64 (chain.length * 2 ^ 60 +
    (chain.zipIdx.map (fun c => c.1 % 1024 * 2 ^ (10 * c.2))).foldl (· + ·) 0)

/-- The canonical logical unit map's bit of a core-form UnitID (R41). -/
def mapBit (u : UnitId) : Option Nat :=
  match UnitForm.ofId u with
  | .core m d k l => some (m * 768 + d * 192 + k * 16 + l)
  | _ => none

/-- The number of cores that a group reaches, the target of its barrier (R275). -/
def State.coreCount (s : State) (i : Nat) : Nat :=
  ((s.reach 6 (UnitForm.toId (.group i))).map (fun r => r.1)).eraseDups.length

/-! ### Split (R32, R33) -/

/-- The member that element j goes to, and its number in that member's sub-transfer. The reserved SPLIT values 3-7, which
a register write can leave in a descriptor, act as 2 (R13; DESIGN CHOICE, log 8). -/
def memberOf (split gran rowlen n j : Nat) : Nat × Nat :=
  let n := max 1 n
  let block := match split with
    | 0 => 1
    | 1 => max 1 gran
    | _ => max 1 gran * max 1 rowlen
  (j / block % n, j / (block * n) * block + j % block)

/-- The core whose queue end takes element j of a transfer to a unit's queue end, and its number there (R32, R33). No
descriptor can name such a queue end: a side of a transfer is a global address or a queue end of the issuing core (R195,
R236, R237). -/
def State.splitTo (s : State) : Nat → UnitId → Nat → UnitId × Nat
  | 0, u, j => (u, j)
  | f + 1, u, j => match UnitForm.ofId u with
      | .core _ _ _ _ => (u, j)
      | .bad => (u, j)
      | .group i =>
          let r := memberOf (s.gdSplit i) (s.gdGran i) (s.gdRowlen i) (s.gdMcount i) j
          s.splitTo f ((s.children u).getD r.1 u) r.2
      | _ =>
          let ch := s.children u
          let r := memberOf 0 1 1 ch.length j
          s.splitTo f (ch.getD r.1 u) r.2

/-! ### Namespaces (R34) -/

/-- The store and index of object k of a group's namespace: module, die, index. -/
def State.nsObject (s : State) (i k : Nat) : Option (Nat × Nat × Nat) :=
  match UnitForm.ofId (s.gdHome i) with
  | .die m d => some (m, d, s.gdNsbase i + k)
  | _ => none

/-! ### BUSY and write locks (R24, R26) -/

/-- Is a bake of the group queued or running on some core of the module? -/
def State.groupBusy (s : State) (i : Nat) : Bool :=
  let g := UnitForm.toId (.group i)
  s.cores.any (fun e => (e.2.seq.run && e.2.seq.group == i) ||
    e.2.fifo.any (fun m => match m with | .launch l _ => l.unit == g | .patch _ => false))

/-- The member entries that a busy descriptor locks. -/
def State.memberLocked (s : State) (k : Nat) : Bool :=
  (s.cores.map (fun e => (if e.2.seq.run then [e.2.seq.group] else []) ++ e.2.fifo.filterMap (fun m => match m with
    | .launch l _ => (match UnitForm.ofId l.unit with | .group i => some i | _ => none)
    | .patch _ => none))).flatten.any (fun i =>
      s.groupBusy i && decide (s.gdMbase i ≤ k) && decide (k < s.gdMbase i + s.gdMcount i))

end Sys2Proof.Machine
end

