-- ==== Sys2Proof/Machine/Vx.lean ====
section
/-! DEFINITION. The VX of a core (spec/04): issue of a command, the reads of a beat in its read cycle, the write of a
beat, and what each does to queue ends, counts and SC. -/
namespace Sys2Proof.Machine

/-! ### Shape of a command's streams (R107, R110) -/

/-- The QPACK block format of a run. -/
def VxRun.qfmt (r : VxRun) : BqFmt := ((QpackCtl.ofWord r.px).map (fun k => k.fmt)).getD .bq4

def VxRun.lanes (r : VxRun) : Nat := vxLanes r.op r.cmd
/-- Lanes of beat k below N. -/
def VxRun.count (r : VxRun) (k : Nat) : Nat := min r.lanes (r.n - k * r.lanes)
def VxRun.srcW (r : VxRun) : Nat := tyWidth r.cmd.ty
/-- Lane width of the destination. -/
def VxRun.dstW (r : VxRun) : Nat :=
  match r.op with
  | .cvt => tyWidth r.cmd.dty
  | .cvtr => tyWidth r.cmd.dty
  | .unpack => tyWidth r.cmd.dty
  | _ => tyWidth r.cmd.ty

/-- The block format that UNPACK reads, or PACK.BQ and QPACK write. -/
def VxRun.blockFmt (r : VxRun) : BqFmt :=
  match r.op with
  | .packBq => (tyBlock r.cmd.dty).getD .bq8
  | .qpack => r.qfmt
  | _ => (tyBlock r.cmd.ty).getD .bq8

/-- Bytes of source A below element x of the command. -/
def VxRun.aPos (r : VxRun) (x : Nat) : Nat :=
  match r.op with
  | .unpack => ceilDiv x 32 * r.blockFmt.size
  | _ => x * r.srcW

/-- Bytes of the destination before beat k, and after the last beat. -/
def VxRun.dPos (r : VxRun) (k : Nat) : Nat :=
  let x := min (k * r.lanes) r.n
  match r.op with
  | .sred => 0
  | .packBq => ceilDiv x 32 * r.blockFmt.size
  | .qpack => ceilDiv x 32 * r.blockFmt.size
  | .cmp _ =>
      if r.cmd.imm = 0 then 16 * k
      else if r.cmd.imm = 2 then (if k < r.beats then k * r.lanes / 32 else ceilDiv r.n 32) * 6
      else x * r.srcW
  | _ => x * r.dstW

def VxRun.dLen (r : VxRun) (k : Nat) : Nat := r.dPos (k + 1) - r.dPos k

/-- Bytes of source B that beat k reads, and those before it (R107, R126, R136). -/
def VxRun.bPos (r : VxRun) (k : Nat) : Nat :=
  match r.op with
  | .perm => 128 * k
  | .cvtr => 16 * ceilDiv (min (8 * k) r.n) 64
  | _ => min (k * r.lanes) r.n * r.srcW
def VxRun.bLen (r : VxRun) (k : Nat) : Nat :=
  if r.op == .cvtr || vxReadsB r.op then r.bPos (k + 1) - r.bPos k else 0

/-- The mask stream is read (R108, R109). -/
def VxRun.maskQ (r : VxRun) : Option Nat := if vxMasked r.op then r.cmd.mq else none

/-- The destination is read back: merge mask on an address or ring destination, or FMA.VVD (R108, R113). -/
def mergesDst (c : Core) (op : VxOp) (cmd : VxCmd) : Bool :=
  let dk := match cmd.dst with
    | .addr _ => true
    | .q n => c.qkind n == 1
    | .none => false
  dk && (op == .fmaVvd || (vxMasked op && op != .sel && cmd.mq.isSome && !cmd.mz))

/-- Read latency of one stream (R110, R144). -/
def srcLat (c : Core) (src : VxSrc) (total beat : Nat) : Nat :=
  match src with
  | .q n => if c.qkind n = 1 then regionLat false (c.qbase n) (c.qslots n * c.qesize n) else 3
  | .addr p => regionLat false (fld (c.p p) 18 0) total
  | .rep p => regionLat false (fld (c.p p) 18 0) beat
  | .bc _ => 0
  | .none => 0

def dstLat (c : Core) (d : VxDst) (total : Nat) : Nat :=
  match d with
  | .q n => srcLat c (.q n) total total
  | .addr p => srcLat c (.addr p) total total
  | .none => 0

/-! ### Issue (R104, R110, R111) -/

/-- The run that a command starts in running cycle rc, its fields and parameters as read then. -/
def vxRun (c : Core) (rc : Nat) (op : VxOp) (cmd : VxCmd) (noop : Bool) : VxRun :=
  let n := fld (c.p cmd.pl) 23 0
  let px := if op == .fmaVs || op == .fmaSv then 0 else c.p cmd.px
  let beats := if op == .sred then min 1 n else ceilDiv n (vxLanes op cmd)
  let r : VxRun :=
    { op := op, cmd := cmd, n := n, px := px, py := c.p cmd.py, c0 := rc, cpb := 1, latDep := 0, beats := beats,
      addrA := (match cmd.sa with | .addr p => fld (c.p p) 18 0 | .rep p => fld (c.p p) 18 0 | _ => 0),
      addrB := (match cmd.sb with | .addr p => fld (c.p p) 18 0 | .rep p => fld (c.p p) 18 0 | _ => 0),
      addrD := (match cmd.dst with | .addr p => fld (c.p p) 18 0 | _ => 0),
      next := 0, leftA := [], leftB := [], leftM := [], status := [], statusOk := true, wait := [], fill := [],
      half := [], halfOk := true, halfPoi := false, written := 0, sat := 0, poi := 0, merge := mergesDst c op cmd,
      tag := c.seq.tag, noop := noop, unpred := false }
  let la := srcLat c cmd.sa (r.aPos (if op == .sred then min n r.lanes else n)) (r.aPos (min n r.lanes))
  let lb := if r.bLen 0 = 0 && op != .unpack then 0 else
    srcLat c cmd.sb (if op == .perm then 128 * beats else r.bPos beats) (if op == .perm then 128 else r.bPos 1)
  let lm := match r.maskQ with
    | some q => srcLat c (.q q) 0 0
    | none => 0
  let ld := if r.merge then dstLat c cmd.dst (r.dPos beats) else 0
  let cpb := vxCpb op cmd
  { r with cpb := if r.merge && op != .fmaVvd then 2 * cpb else cpb,
           latDep := max (max la lb) (max lm ld) + vxDep op cmd }

/-- An operand that an opcode may not have, or lacks (R104): an absent source or destination that it needs, a
broadcast RAW128. -/
def vxBadOperands (op : VxOp) (cmd : VxCmd) : Bool :=
  let raw (x : VxSrc) : Bool := cmd.ty == .raw128 && (match x with | .bc _ => true | _ => false)
  cmd.sa == .none || raw cmd.sa || (vxReadsB op && (cmd.sb == .none || (op != .perm && raw cmd.sb))) ||
  (op != .sred && cmd.dst == .none)

/-- An IMM that names no scalar register or queue end (R113, R128, R133). -/
def vxBadImm (op : VxOp) (imm : Nat) : Bool :=
  match op with
  | .sred => decide (16 ≤ imm)
  | .fmaVs => decide (16 ≤ imm)
  | .fmaSv => decide (16 ≤ imm)
  | .qpack => decide (48 ≤ imm)
  | _ => false

/-- A reserved encoding (R13, R104, R113, R131): such a command takes no effect (log 8). FMA.VVD is one with either kind
of channel as its destination; with an unbound one it runs, its d read as zero and its result discarded (DESIGN CHOICE,
log 39). -/
def vxReserved (c : Core) (op : VxOp) (cmd : VxCmd) : Bool :=
  !vxLegal op cmd || vxBadOperands op cmd || vxBadImm op cmd.imm ||
  (op == .fmaVvd && (match cmd.dst with | .q n => decide (2 ≤ c.qkind n) | _ => false)) ||
  (op == .qpack && (QpackCtl.ofWord (c.p cmd.px)).isNone)

/-- The first running cycle in which R111 allows the next command after run q, whose latency and depth are ld. -/
def VxRun.nextAt (q : VxRun) (ld : Nat) : Nat := q.c0 + q.beats * q.cpb + (q.latDep - ld)

/-- The beats that a run, as it was issued, has written before running cycle rc (R110). -/
def VxRun.writtenBy (q : VxRun) (rc : Nat) : Nat :=
  ((List.range q.beats).filter (fun k => decide (q.c0 + k * q.cpb + q.latDep < rc))).length

/-- What a command has written by running cycle rc becomes unpredictable (R111): free bytes, where they lie in the
scratchpad (log 10); an element that has left the core stays as it was sent (DESIGN CHOICE, log 39). -/
def vxScramble (c : Core) (q : VxRun) (rc : Nat) : Core :=
  let n := q.writtenBy rc
  if q.noop || n = 0 then c
  else match q.cmd.dst with
    | .addr _ => let f := c.freeBytes (q.dPos n); f.2.pokeBytes q.addrD f.1
    | .q d =>
        if c.qkind d = 1 && !c.qbad d then
          let e := c.qesize d
          let k := if n = q.beats then ceilDiv (q.dPos n) e else q.dPos n / e
          let first := c.qwr d + c.qslots d * k - k
          (List.range k).foldl (fun (c : Core) i =>
            let f := c.freeBytes e
            f.2.pokeBytes (c.slotAddr d ((first + i) % c.qslots d)) f.1) c
        else c
    | .none => c

/-- Issue of a VX command in running cycle rc; one issued earlier than R111 allows after the command before it makes every
beat of both unpredictable. -/
def vxIssue (c : Core) (rc : Nat) (op : VxOp) (cmd : VxCmd) (noop : Bool) : Core :=
  let c := { c with vxAt := rc + 1 }
  let r := vxRun c rc op cmd noop
  if vxReserved c op cmd || r.beats = 0 then c
  else
    match c.vxPrev.filter (fun q => decide (rc < q.nextAt r.latDep)) with
    | some p =>
        let c := vxScramble c p rc
        { c with vxs := c.vxs.map (fun q => if q.c0 = p.c0 then { q with unpred := true } else q) ++ [{ r with unpred := true }],
                 vxPrev := some r }
    | none => { c with vxs := c.vxs ++ [r], vxPrev := some r }

/-! ### Reads (R106, R107, R110) -/

/-- Does the run read a beat in running cycle rc? -/
def VxRun.readsAt (r : VxRun) (rc : Nat) : Bool :=
  decide (r.next < r.beats) && decide (rc = r.c0 + r.next * r.cpb)

/-- The channel pops of the beat read next (R158). -/
def vxNeeds (c : Core) (r : VxRun) : List QueueNeed :=
  if r.noop then []
  else
    let k := r.next
    let pop (src : VxSrc) (need left : Nat) : List QueueNeed :=
      match src with
      | .q n => c.popNeed n (c.streamElems n need left)
      | _ => []
    pop r.cmd.sa (r.aPos (min r.n ((k + 1) * r.lanes)) - r.aPos (min r.n (k * r.lanes))) r.leftA.length ++
      pop r.cmd.sb (r.bLen k) r.leftB.length ++
      (match r.maskQ with
        | some q => pop (.q q) 16 r.leftM.length
        | none => [])

/-- One stream's bytes of a beat: `need` bytes at position pos. -/
def vxFetch (c : Core) (p : Nat) (src : VxSrc) (addr pos need w : Nat) (left : List (Bool × Byte)) :
    Bool × List Byte × List (Bool × Byte) × Core :=
  match src with
  | .q n =>
      let r := c.stream p n need left
      (r.1.all (fun b => b.1), r.1.map (fun b => b.2), r.2.1, r.2.2)
  | .addr _ => let r := c.readFrom p (addr + pos) need; (true, r.1, left, r.2)
  | .rep _ => let r := c.readFrom p addr need; (true, r.1, left, r.2)
  | .bc s =>
      let v := bytesLE (c.s s).toNat w
      (true, (List.range need).map (fun i => v.getD (i % max 1 w) 0), left, c)
  | .none => (true, List.replicate need 0, left, c)

/-- The bytes that a VX command has still to push to its destination. -/
def VxRun.toPush (r : VxRun) : Nat :=
  let left : List Nat := (List.range r.beats).filter (fun k => decide (r.next ≤ k))
  r.fill.length + ((r.wait.map (fun b => r.dLen b.k)).foldl (· + ·) 0)
    + ((left.map (fun k => r.dLen k)).foldl (· + ·) 0)

/-- The old destination bytes of beat k (R108): at its address, or in the ring slots that its bytes will be pushed
to, counted from WR past the elements that commands issued before have still to push, the last of each filled up with
zeros (R106), and what this one has. -/
def vxOld (c : Core) (r : VxRun) (k : Nat) : List Byte × Core :=
  if !r.merge then ([], c)
  else match r.cmd.dst with
    | .addr _ => c.readFrom 9 (r.addrD + r.dPos k) (r.dLen k)
    | .q n =>
        let before := c.vxs.filter (fun x => decide (x.c0 < r.c0) && x.cmd.dst == .q n)
        let e := c.qesize n
        let pend := (before.map (fun x => ceilDiv x.toPush e * e)).foldl (· + ·) 0 + r.fill.length
          + ((r.wait.map (fun b => r.dLen b.k)).foldl (· + ·) 0)
        c.readCells 9 ((List.range (r.dLen k)).map (fun i =>
          c.slotAddr n ((c.qwr n + (pend + i) / e) % c.qslots n) + (pend + i) % e))
    | .none => ([], c)

/-- The sidecar entries that the blocks of an UNPACK beat take (R129); an unbound SB counts one pop. -/
def vxSide (c : Core) (src : VxSrc) (blocks : List (List Byte)) : List (List SideEntry) × Core :=
  match src with
  | .q n =>
      let c := if c.noPop n && blocks.any (fun b => (Header.ofNat (natLE (b.take 2))).takes != 0)
        then c.ev 0x0B n 1 else c
      blocks.foldl (fun (a : List (List SideEntry) × Core) b =>
        let k := (Header.ofNat (natLE (b.take 2))).takes
        let r := (List.range k).foldl (fun (x : List SideEntry × Core) _ =>
          if x.2.noPop n then (x.1 ++ [⟨false, 0⟩], x.2)
          else let y := x.2.popItem 7 n 4; (x.1 ++ [⟨y.1, natLE y.2.1⟩], y.2.2)) (([] : List SideEntry), a.2)
        (a.1 ++ [r.1], r.2)) (([] : List (List SideEntry)), c)
  | _ => (blocks.map (fun _ => []), c)

/-- Does an output lane of the opcode read other lanes of its beat? -/
def vxCrosses (r : VxRun) : Bool :=
  match r.op with
  | .shufXor => true | .shufRot => true | .shufBc => true | .perm => true | _ => r.cmd.shb != 0

/-- The opcode of a run as a number, in the order of R113. -/
def VxOp.number (op : VxOp) : Nat :=
  match op with
  | .shufXor => 1 | .shufRot => 2 | .shufBc => 3 | .perm => 4 | .add => 5 | .sub => 6 | .mul => 7 | .mulh => 8 | .adds => 9
  | .subs => 10 | .fmaVs => 11 | .fmaSv => 12 | .fmaVvd => 13 | .min => 14 | .max => 15 | .sel => 16 | .and => 17 | .or => 18
  | .xor => 19 | .andn => 20 | .shl => 21 | .shr => 22 | .sra => 23 | .cmp _ => 24 | _ => 0

/-- Beat k of source A (side 0) or B (side 1) in whole width, where lanes beyond N can be read by a shuffle: no source byte
is read for those, and their value is open, but a function of the command and of the bits read (R107, R116; log 10). Of a
broadcast every lane holds the scalar (R105, R127). -/
def vxPad (r : VxRun) (src : VxSrc) (side k : Nat) (bs : List Byte) : List Byte :=
  let more := List.range (r.lanes * r.srcW - bs.length)
  if !vxCrosses r then bs
  else match src with
    | .bc _ => bs ++ more.map (fun i => bs.getD (i % max 1 r.srcW) 0)
    | _ => bs ++ more.map (Config.unread [r.op.number, r.srcW, r.cmd.imm, r.cmd.shb, r.n, k, side] bs)

/-- The reads of the run's next beat in its read cycle rc (R106-R110); the beat then waits to be written. SRED's beat
becomes a late scalar write (R128). An invalid beat of UNPACK takes no sidecar entry, of none of its blocks (DESIGN CHOICE,
log 39: R106 makes the beat a bubble and names no entries). -/
def vxReadBeat (c : Core) (rc : Nat) (r : VxRun) : VxRun × Core :=
  let k := r.next
  let due := rc + r.latDep
  if r.noop then
    ({ r with next := k + 1, wait := r.wait ++ [{ k := k, due := due, valid := false, a := [], b := [], mask := [],
                                                   old := [], side := [], s := 0 }] }, c)
  else
    let lo := r.aPos (min r.n (k * r.lanes))
    let need := if r.op == .sred then min (r.lanes * r.srcW) (r.n * r.srcW)
      else r.aPos (min r.n ((k + 1) * r.lanes)) - lo
    let fa := vxFetch c 6 r.cmd.sa r.addrA lo need r.srcW r.leftA
    let pa := vxPad r r.cmd.sa 0 k fa.2.1
    let fb := vxFetch fa.2.2.2 7 r.cmd.sb r.addrB (r.bPos k) (r.bLen k) (if r.op == .cvtr then 16 else r.srcW) r.leftB
    let pb := if r.op == .perm || r.op == .cvtr then fb.2.1 else vxPad r r.cmd.sb 1 k fb.2.1
    let fm := match r.maskQ with
      | some q => vxFetch fb.2.2.2 8 (.q q) 0 0 16 1 r.leftM
      | none => (true, [], r.leftM, fb.2.2.2)
    let od := vxOld fm.2.2.2 r k
    let blocks := if r.op == .unpack then chunks r.blockFmt.size 4 fa.2.1 else []
    let sd := if r.op == .unpack && fa.1 then vxSide od.2 r.cmd.sb blocks else (blocks.map (fun _ => []), od.2)
    let fresh := r.op == .cvtr && r.bLen k != 0
    let st := if fresh then fb.2.1 else r.status
    let stOk := if fresh then fb.1 else r.statusOk
    let ok := fa.1 && fm.1 && (if r.op == .cvtr then stOk else fb.1)
    let c := sd.2
    let r := { r with next := k + 1, leftA := fa.2.2.1, leftB := fb.2.2.1, leftM := fm.2.2.1, status := st,
                      statusOk := stOk }
    if r.op == .sred then
      let w := r.srcW
      let v := if tyFp r.cmd.ty then BitVec.ofNat 64 (natLE (fa.2.1.take w)) else sext64 (8 * w) (natLE (fa.2.1.take w))
      (r, { c with late := c.late ++ [⟨due, rc, .sred r.cmd.imm (if ok then v else 0)⟩] })
    else
      ({ r with wait := r.wait ++ [{ k := k, due := due, valid := ok, a := pa,
                                      b := (if r.op == .cvtr then st else pb), mask := fm.2.1, old := od.1,
                                      side := sd.1, s := c.s r.cmd.imm }] }, c)

/-- A read SRED whose result would have been written by running cycle rc: it delays no later command (R111). -/
def VxRun.spent (r : VxRun) (rc : Nat) : Bool :=
  r.op == .sred && r.next == r.beats && decide (r.c0 + r.beats * r.cpb + r.latDep ≤ rc)

/-- Every VX read of running cycle rc. -/
def vxReads (c : Core) (rc : Nat) : Core :=
  let r := c.vxs.foldl (fun (a : List VxRun × Core) run =>
    if run.readsAt rc then
      let x := vxReadBeat a.2 rc run
      (a.1 ++ [x.1], x.2.blame a.2.faults.length 1 run.tag)
    else (a.1 ++ [run], a.2)) (([] : List VxRun), c)
  { r.2 with vxs := r.1.filter (fun x => !x.spent rc) }

/-! ### Results of a beat (R117-R136) -/

/-- What the write of a beat carries beyond its bytes: sidecar entries, counts of events, and the lanes of a BQ1 block
that CMP form 2 has not completed. -/
structure VxRes where
  out : BeatOut
  side : List (List Nat) := []
  fmt : Nat := 0
  flagged : Nat := 0
  outSat : Nat := 0
  valid : Bool := true
  half : List Nat := []
  halfOk : Bool := true
  halfPoi : Bool := false
deriving DecidableEq, Repr

/-- One BQ1 block of CMP form 2 (R118): codes 0 and 1, or 2 for an inactive lane that keeps its old code. -/
def cmpBlock (ts : Nat) (poi : Bool) (codes : List Nat) (old : List Byte) : List Byte :=
  if poi then poisonBlock .bq1 ts
  else
    let o := natLE (old.drop 2)
    blockBytes .bq1 { e := 127, ocnt := 0, pz := false, ts := ts }
      ((padTo 0 32 codes).zipIdx.map (fun x => if x.1 = 2 then bitsOf o x.2 x.2 else x.1))

/-- CMP of a beat (R118). Form 0 writes its 16 B whole, with zero bits from N upwards in a partial last beat too (DESIGN
CHOICE, log 39: R107 would keep them at an address, R118 has 16 B written). Form 2 gathers lanes until a block is complete;
the beat's blocks share the validity of the beats that feed them. -/
def cmpRes (r : VxRun) (p : Pred) (b : VxBeat) : VxRes :=
  let w := r.srcW
  let n := r.count b.k
  let la := lanesOf w b.a
  let lb := lanesOf w b.b
  let m := r.lanes
  let lane (i : Nat) : Bool × Bool :=
    laneCmp p r.cmd.ty (la.getD i 0) (lb.getD (if r.cmd.shb = 0 then i else nxor i (r.cmd.shb % m)) 0)
  let act (i : Nat) : Bool := maskBit b.mask i
  let poi := ((List.range n).filter (fun i => act i && (lane i).2)).length
  match r.cmd.imm with
  | 0 =>
      let bit (i : Nat) : Nat :=
        if i ≥ n then 0
        else if act i then (lane i).1.toNat
        else if r.merge then bitsOf (natLE b.old) i i else 0
      let v := (List.range 128).foldl (fun a i => a + bit i * 2 ^ i) 0
      { out := { bytes := (bytesLE v 16).map some, poi := poi }, half := r.half, halfOk := r.halfOk }
  | 1 =>
      let one (i : Nat) : LaneRes :=
        match lane i, tyFloat r.cmd.ty with
        | (_, true), some f => { bits := f.poison, poi := true }
        | (t, _), _ => { bits := if t then 2 ^ (8 * w) - 1 else 0 }
      { out := beatOf w n b.mask r.cmd.mz b.old one, half := r.half, halfOk := r.halfOk }
  | _ =>
      let code (i : Nat) : Nat :=
        if act i then (lane i).1.toNat else if r.merge then 2 else 0
      let codes := r.half ++ (List.range n).map code
      let ok := r.halfOk && b.valid
      let pz := (List.range (ceilDiv n 32)).map (fun j =>
        (List.range n).any (fun i => i / 32 == j && act i && (lane i).2))
      let done := r.dLen b.k / 6
      if done = 0 then
        { out := { bytes := [], poi := poi }, half := codes, halfOk := ok, halfPoi := r.halfPoi || pz.any id }
      else
        let ts := fld r.px 1 0
        let blk (j : Nat) : List Byte :=
          cmpBlock ts ((j == 0 && r.halfPoi) || (if r.half.isEmpty then pz.getD j false else pz.any id))
            (slice codes (32 * j) 32) (slice b.old (6 * j) 6)
        { out := { bytes := (((List.range done).map blk).flatten).map some, poi := poi }, valid := ok }

/-- UNPACK of a beat (R129). -/
def unpackRes (r : VxRun) (b : VxBeat) : VxRes :=
  match tyFloat r.cmd.dty with
  | none => { out := { bytes := [] } }
  | some f =>
      let u := bitAt r.px 0
      let bq := r.blockFmt
      let blks := (chunks bq.size 4 b.a).zipIdx.map (fun x => Block.read x.1 (r.cmd.sb != .none) (b.side.getD x.2 []))
      let n := r.count b.k
      let lane (i : Nat) : LaneRes :=
        let blk := blks.getD (i / 32) (Block.read [] false [])
        if blk.poisoned then { bits := f.poison }
        else
          let v := blk.elem bq u (i % 32)
          match blk.outlier (i % 32), v with
          | none, .fin _ 0 _ => { bits := 0 }
          | _, v => cvtFF f .rne v
      let o := beatOf r.dstW n [] true [] lane
      { out := { o with poi := o.poi + 32 * (blks.filter (fun k => k.poisoned)).length },
        fmt := (blks.filter (fun k => k.malformed)).length }

/-- PACK.BQ of a beat (R130). -/
def packRes (r : VxRun) (b : VxBeat) : VxRes :=
  let h : Header := { e := fld r.px 15 8, ocnt := 0, pz := bitAt r.px 5, ts := fld r.px 4 3 }
  let blk (l : List Byte) : List Byte := blockBytes r.blockFmt h (padTo 0 32 (l.map (fun x => x.toNat)))
  { out := { bytes := (((chunks 32 4 b.a).map blk).flatten).map some } }

/-- QPACK of a beat (R131-R134). -/
def qpackRes (r : VxRun) (b : VxBeat) : VxRes :=
  match tyFloat r.cmd.ty, QpackCtl.ofWord r.px with
  | some f, some ctl =>
      let vs := (lanesOf r.srcW b.a).map (fun x => f.read x)
      let tau := FFmt.fp32.read (fld r.py 31 0)
      let outs := (chunks 32 2 vs).map (fun l => qpack ctl tau (padTo (.fin false 0 0) 32 l))
      { out := { bytes := ((outs.map (fun o => o.block)).flatten).map some,
                 poi := (outs.filter (fun o => o.poisoned)).length },
        side := outs.map (fun o => o.side), flagged := (outs.filter (fun o => o.flagged)).length,
        outSat := (outs.map (fun o => o.outSat)).foldl (· + ·) 0 }
  | _, _ => { out := { bytes := [] } }

/-- CVTR of a beat (R136). -/
def cvtrRes (r : VxRun) (b : VxBeat) : VxRes :=
  let la := lanesOf 16 b.a
  let st := natLE b.b
  let j := 8 * b.k % 64
  let k := cvtrScale r.px r.py
  { out := beatOf r.dstW (r.count b.k) [] true [] (fun i =>
      laneCvtr r.cmd.dty (fld r.px 21 16) k (natBit st (64 + j + i)) (natBit st (j + i)) (la.getD i 0)) }

/-- What the write of a valid beat writes and counts. -/
def vxResult (r : VxRun) (b : VxBeat) : VxRes :=
  let w := r.srcW
  let n := r.count b.k
  let m := r.lanes
  let la := lanesOf w b.a
  let lb := lanesOf w b.b
  let ld := lanesOf w b.old
  let bi (i : Nat) : Nat := lb.getD (if r.cmd.shb = 0 then i else nxor i (r.cmd.shb % m)) 0
  let lanes (f : Nat → LaneRes) : VxRes := { out := beatOf w n b.mask r.cmd.mz b.old f }
  match r.op with
  | .cmp p => cmpRes r p b
  | .unpack => unpackRes r b
  | .packBq => packRes r b
  | .qpack => qpackRes r b
  | .cvtr => cvtrRes r b
  | .sred => { out := { bytes := [] } }
  | .sel => { out := beatOf w n [] true [] (fun i =>
      { bits := if maskBit b.mask i then la.getD i 0 else bi i }) }
  | .cvt => { out := beatOf r.dstW n b.mask r.cmd.mz b.old (fun i =>
      laneCvt r.cmd.rm r.cmd.ty r.cmd.dty (fld r.px 5 0) (fld r.px 13 8) (la.getD i 0)) }
  | .transc t => lanes (fun i => laneTransc t r.cmd.ty (la.getD i 0))
  | .shufXor => lanes (fun i => { bits := la.getD (shufLane .shufXor r.cmd.imm m i) 0 })
  | .shufRot => lanes (fun i => { bits := la.getD (shufLane .shufRot r.cmd.imm m i) 0 })
  | .shufBc => lanes (fun i => { bits := la.getD (shufLane .shufBc r.cmd.imm m i) 0 })
  | .perm => lanes (fun i =>
      let t := (b.b.getD i 0).toNat
      { bits := if t ≥ 128 then 0 else la.getD (t % 128 % m) 0 })
  | .fmaVs => lanes (fun i => laneArith .fmaVs r.cmd.ty 0 (la.getD i 0) (bi i) b.s.toNat)
  | .fmaSv => lanes (fun i => laneArith .fmaSv r.cmd.ty 0 (la.getD i 0) (bi i) b.s.toNat)
  | .fmaVvd => lanes (fun i => laneArith .fmaVvd r.cmd.ty 0 (la.getD i 0) (bi i) (ld.getD i 0))
  | op => lanes (fun i => laneArith op r.cmd.ty (fld r.px 5 0) (la.getD i 0) (bi i) 0)

/-! ### Writes (R106-R110) -/

/-- The elements that the fill buffer has complete, the last one padded when `flush`, and what stays. -/
def vxElems (e : Nat) (flush : Bool) (fill : List (Bool × Byte)) : List Elem × List (Bool × Byte) :=
  let e := max 1 e
  let k := if flush then ceilDiv fill.length e else fill.length / e
  ((List.range k).map (fun i =>
      let l := slice fill (i * e) e
      { valid := l.all (fun x => x.1), bytes := padTo 0 e (l.map (fun x => x.2)) }), fill.drop (k * e))

/-- The oldest run with a beat due. -/
def vxDueRun (c : Core) (rc : Nat) : Option (VxRun × VxBeat) :=
  c.vxs.findSome? (fun r => match r.wait with
    | b :: _ => if b.due ≤ rc then some (r, b) else none
    | [] => none)

/-- The credits that a block's sidecar entries need (R133, R158). -/
def Core.sideNeed (c : Core) (q : Nat) (vs : List Nat) : List QueueNeed := c.pushNeed q (vs.length * c.itemElems q 4)

/-- A block's sidecar entries are pushed, 4 B each (R133): on a write path of their own, which R143 gives no port; they
take the place of VX-D in the order of R145, after the block's own write (DESIGN CHOICE, log 39). -/
def Core.pushSide (c : Core) (q : Nat) (vs : List Nat) : Core :=
  vs.foldl (fun c v => c.pushItem 9 q 4 true (bytesLE v 4)) c

/-- The channel pushes of a beat's write (R158): its elements, and the sidecar entries of QPACK. -/
def vxWriteNeeds (c : Core) (r : VxRun) (b : VxBeat) : List QueueNeed :=
  (match r.cmd.dst with
    | .q n =>
        let e := max 1 (c.qesize n)
        let total := r.fill.length + r.dLen b.k
        c.pushNeed n (if b.k + 1 = r.beats then ceilDiv total e else total / e)
    | _ => []) ++
  (if r.op == .qpack && b.valid then c.sideNeed r.cmd.imm ((qpackRes r b).side.getD 0 []) else [])

/-- The destination write of a beat: bytes at their address, or into elements of the queue end. -/
def vxStore (c : Core) (r : VxRun) (k : Nat) (valid : Bool) (bs : List (Option Byte)) : VxRun × Core :=
  match r.cmd.dst with
  | .addr _ =>
      if !valid then (r, c)
      else (r, c.writeCells 9 ((bs.zipIdx.filterMap (fun x => x.1.map (fun v => (r.addrD + r.dPos k + x.2, v))))))
  | .q n =>
      if c.noPush n then (r, if r.noop || r.dLen k = 0 then c else c.ev 0x0B n 1)
      else
        let add := if valid then bs.map (fun v => (true, v.getD 0)) else List.replicate (r.dLen k) (false, 0)
        let es := vxElems (c.qesize n) (k + 1 == r.beats) (r.fill ++ add)
        let c := if es.1.isEmpty then c
          else if r.noop && c.qkind n = 1 then c.skipSlots n es.1.length
          else c.pushElems 9 n es.1
        ({ r with fill := es.2 }, c)
  | .none => (r, c)

/-- The result of a beat that R111 makes unpredictable: every byte, count and sidecar entry of it is a free value,
a count at most the lanes of a beat (log 10). -/
def VxRes.free (x : VxRes) (c : Core) : VxRes × Core :=
  let n := x.out.bytes.length
  let f := c.freeBytes (n + 5)
  let count (i : Nat) : Nat := (f.1.getD (n + i) 0).toNat % 129
  let g := x.side.foldl (fun (a : List (List Nat) × Core) l =>
      let y := a.2.freeBytes (4 * l.length)
      (a.1 ++ [(chunks 4 l.length y.1).map natLE], y.2)) (([] : List (List Nat)), f.2)
  ({ x with out := { x.out with bytes := (f.1.take n).map some, sat := count 0, poi := count 1 }, side := g.1,
            fmt := count 2, flagged := count 3, outSat := count 4 }, g.2)

/-- The write of beat b of run r (R106-R110, R115, R133); the last beat schedules the SC addition for the next
running cycle and ends the run. -/
def vxWriteBeat (c : Core) (r : VxRun) (b : VxBeat) : Core :=
  let res : VxRes := if b.valid then vxResult r b
    else match r.op with
      | .cmp p => { cmpRes r p b with valid := false }
      | _ => { out := { bytes := [] }, valid := false }
  let live := res.valid && !r.noop
  let x := if r.unpred && live then res.free c else (res, c)
  let res := x.1
  let st := vxStore x.2 { r with wait := r.wait.drop 1 } b.k live res.out.bytes
  let c := st.2
  let c := if live && r.op == .qpack then
      let c := c.pushSide r.cmd.imm (res.side.getD 0 [])
      if (res.side.getD 1 []).isEmpty then c
      else { c with late := c.late ++ [⟨b.due + 1, r.c0, .side r.cmd.imm (res.side.getD 1 [])⟩] }
    else c
  let sat := if live then res.out.sat else 0
  let poi := if live then res.out.poi else 0
  let flagged := if live then res.flagged else 0
  let c := ((((c.ev 0x08 0 sat).ev 0x06 4 poi).ev 0x07 1 res.fmt).ev 0x09 0 flagged).ev 0x09 1 res.outSat
  let r' := { st.1 with written := r.written + 1, sat := r.sat + sat + flagged, poi := r.poi + poi, half := res.half,
                        halfOk := res.halfOk, halfPoi := res.halfPoi }
  if r'.written = r.beats then
    let c := { c with vxs := c.vxs.erase r }
    match r.cmd.sc with
    | some s => if r.noop then c else { c with late := c.late ++ [⟨b.due + 1, r.c0, .scVx s r'.sat r'.poi⟩] }
    | none => c
  else { c with vxs := c.vxs.replace r r' }

end Sys2Proof.Machine
end

