-- ==== Sys2Proof/Machine/Seq.lean ====
section
/-! DEFINITION. The sequencer of a core (spec/06): the command FIFO (R29, R30), the start of a bake (R174), PATCH (R181),
yield points (R175, R177), what SKIP and END do (R184, R175), the fetch of a bundle (R167-R172) and ABORT (R102, R138,
R160, R202). -/
namespace Sys2Proof.Machine

/-! ### Templates (R173) -/

def Core.kt (c : Core) (k : Nat) : Word := c.reg (0x400 + 8 * k)
def Core.ktV (c : Core) (k : Nat) : Bool := decide (k < 32) && bitAt (c.kt k) 63
def Core.ktLen (c : Core) (k : Nat) : Nat := fld (c.kt k) 47 32
def Core.ktStart (c : Core) (k : Nat) : Nat := fld (c.kt k) 15 0

/-- The index of a group-form UnitID. -/
def groupOf (u : UnitId) : Option Nat :=
  match UnitForm.ofId u with
  | .group i => some i
  | _ => none

/-! ### FIFO messages (R29, R31, R174, R181) -/

/-- PATCH: one parameter register among P0-P62; one that names P63 is discarded (R29), one that names a register whose
FIX bit is set is discarded and counted (R181). -/
def Core.patch (c : Core) (m : PatchMsg) : Core :=
  if m.pn > 62 then c
  else if natBit (c.reg 0x280).toNat m.pn then c.ev 0x0F 0 1
  else c.setP m.pn m.val

/-- The scalar registers S0-S15 set to zero. -/
def Core.clearS (c : Core) : Core :=
  { (List.range 16).foldl (fun (c : Core) n => c.setSreg n 0) c with slog := [] }

/-- The LAUNCH acts in running cycle rc (R29, R174): S cleared, P63 and the group's current GEN written, kernel cycle 0
four cycles later. One that names a template with V = 0 is discarded and counted. -/
def Core.startBake (c : Core) (gen : Nat → Nat) (rc : Nat) (m : LaunchMsg) (p63 : Word) : Core :=
  if c.ktV m.tmpl then
    let c := c.clearS.setP 63 p63
    { c with seq := { run := true, tmpl := m.tmpl, gen := gen ((groupOf m.unit).getD 0), tag := c.seq.tag, k0 := rc + 4, addr := c.ktStart m.tmpl,
                      last := rc + 4, group := (groupOf m.unit).getD 0, part := m.part, tally := m.tally, start := rc } }
  else c.ev 0x0E 0 1

/-- The messages at the head of the FIFO act while the core runs no bake, in order and without taking cycles; gen gives
each group's current GEN. -/
def Core.actFifo (gen : Nat → Nat) (rc : Nat) : Nat → Core → Core
  | 0, c => c
  | n + 1, c =>
      if c.seq.run then c
      else match c.fifo with
        | [] => c
        | .patch m :: t => Core.actFifo gen rc n (({ c with fifo := t } : Core).patch m)
        | .launch m p :: t => Core.actFifo gen rc n (({ c with fifo := t } : Core).startBake gen rc m p)

/-- A message enters the FIFO: what the core's 16 entries do not hold waits, in order, at the hub (R30, log 11). -/
def Core.enqueue (c : Core) (gen : Nat → Nat) (rc : Nat) (m : CoreMsg) : Core :=
  Core.actFifo gen rc (c.fifo.length + 1) { c with fifo := c.fifo ++ [m] }

/-! ### Yield points (R175, R177) -/

/-- The bake ends in running cycle rc; the messages at the head of the FIFO then act. -/
def Core.endBake (c : Core) (gen : Nat → Nat) (rc : Nat) : Core :=
  Core.actFifo gen rc c.fifo.length { c with seq := { tag := c.seq.tag } }

/-- A kernel ends before running cycle rc: its partition is to be charged with the running cycles of its template (R371), from
kernel cycle 0 on (DEDUCED, log 61). -/
def Core.endKernel (c : Core) (rc : Nat) : Core := { c with kernels := c.kernels ++ [(c.seq.part, rc - c.seq.k0)] }

/-- The yield point of an issued END, once its cycle has come: a successor 63, without V or reserved ends the bake; a
waiting QUIESCE ends a bake that would go on; otherwise the chosen template starts three cycles later. -/
def Core.yieldPoint (c : Core) (gen : Nat → Nat) (rc : Nat) : Core :=
  match c.seq.next with
  | none => c
  | some k =>
      if rc ≤ c.seq.last then c
      else
      let c := c.endKernel (c.seq.last + 1)
      if c.ktV k && !c.seq.quiesce then
        let k0 := c.seq.last + 4
        { c with seq := { c.seq with tmpl := k, k0 := k0, last := k0, addr := c.ktStart k, skip := 0, next := none } }
      else (if k < 32 && !c.ktV k then c.ev 0x0E 0 1 else c).endBake gen rc

/-- Does a waiting QUIESCE end, at the yield point of running cycle rc, a bake that would go on (R177)? -/
def Core.quiesced (c : Core) (rc : Nat) : Bool :=
  match c.seq.next with
  | some k => decide (c.seq.last < rc) && c.ktV k && c.seq.quiesce
  | none => false

/-- END in its issue cycle: the successor that the condition chooses. -/
def Core.endCmd (c : Core) (rc dcy : Nat) (t : Test) (nt nf : Nat) : Core :=
  let k := if c.test t then nt else nf
  ({ c with seq := { c.seq with next := some k, last := rc } } : Core).trace dcy 3 4 k

/-- SKIP in its issue cycle: if its condition holds, the next n bundles become no-ops. -/
def Core.skipCmd (c : Core) (dcy : Nat) (t : Test) (n : Nat) : Core :=
  if c.test t then ({ c with seq := { c.seq with skip := max c.seq.skip n } } : Core).trace dcy 3 3 n else c

/-! ### Bundles (R167-R172, R184, R185) -/

/-- The bundle that the sequencer issues next. -/
def Core.bundle (c : Core) : Bundle :=
  bundleOf ((List.range 5).map (fun i => BitVec.ofNat 64 (natLE (c.peekBytes (c.seq.addr + 8 * i) 8))))

/-- Is a bundle left to issue: a bake runs, its template has no issued END, and LEN is not reached (log 9)? -/
def Core.hasBundle (c : Core) : Bool :=
  c.seq.run && c.seq.next.isNone &&
    decide (c.seq.addr < c.ktStart c.seq.tmpl + 8 * c.ktLen c.seq.tmpl)

/-- The running cycle in which the next bundle issues. -/
def Core.bundleDue (c : Core) : Nat := c.seq.last + c.bundle.delta

/-- The ECC check of the fetch of the bundle b (R147): of the 16 B units that it lies in. -/
def Core.fetchCheck (c : Core) (b : Bundle) : Core :=
  ((List.range (b.size / 16 + 2)).map (fun i => c.seq.addr / 16 + i)).foldl (fun (c : Core) n =>
    if n * 16 < c.seq.addr + b.size then c.eccRead n else c) c

/-- The sequencer issues the bundle b: TAG is that of b for everything that its commands do in the cycle (R171). -/
def Core.advance (c : Core) (rc dcy : Nat) (b : Bundle) : Core :=
  let c := ({ c with seq := { c.seq with tag := b.tag } } : Core).fetchCheck b
  (({ c with seq := { c.seq with last := rc, addr := c.seq.addr + b.size } } : Core).ev 0x02 0 1).trace dcy 3 0 0

/-- A no-op bundle: every command is counted; MX and VX take their cycles, SX and QX do nothing (R185); the SKIPs that
held cover one bundle less. -/
def Core.noopBundle (c : Core) (rc : Nat) (b : Bundle) : Core :=
  let c := { c with seq := { c.seq with skip := c.seq.skip - 1 } }
  let c := (((c.ev 0x03 0 b.pmx.toNat).ev 0x03 1 b.pvx.toNat).ev 0x03 2 b.psx.toNat).ev 0x03 3 b.pqx.toNat
  let c := match b.mx with
    | some m => mxIssue c rc m.1 m.2 true
    | none => c
  match b.vx with
  | some v => vxIssue c rc v.1 v.2 true
  | none => c

/-- The MX and VX commands of a bundle issue in running cycle rc. -/
def Core.issueMxVx (c : Core) (rc : Nat) (b : Bundle) : Core :=
  let c := match b.mx with
    | some m => mxIssue c rc m.1 m.2 false
    | none => c
  match b.vx with
  | some v => vxIssue c rc v.1 v.2 false
  | none => c

/-- The channel pops that the reads of running cycle rc make (R158). -/
def Core.readNeeds (c : Core) (rc : Nat) : List QueueNeed :=
  (c.mxs.map (fun r => mxNeeds c r rc)).flatten ++
    (c.vxs.map (fun r => if r.readsAt rc then vxNeeds c r else [])).flatten

/-- The MX steps and VX beat reads of running cycle rc, those not yet taken (R141, R145: the ports' fixed order). -/
def Core.doReads (c : Core) (rc : Nat) : Core := vxReads (mxSteps c rc) rc

/-- What a running cycle does before its drains, writes and stream reads: accumulators swap and take products, then the
matrix and vector units read. -/
def Core.beginCycle (c : Core) (rc : Nat) : Core := (mxSettle c rc).doReads rc

/-! ### ABORT (R102, R138, R160, R202, R383) -/

/-- Every queue end unbound, every channel-in buffer emptied (R160). -/
def Core.unbindAll (c : Core) : Core :=
  { (List.range 48).foldl (fun (c : Core) n => if c.qkind n = 0 then c else c.unbind n) c with chan := [] }

/-- Weight and activation registers marked invalid, accumulators zeroed (R102). -/
def Core.invalidate (c : Core) : Core :=
  { c with wreg := List.replicate 8 none, areg := List.replicate 8 none, wload := List.replicate 8 0,
           aload := List.replicate 8 0, acc := [], seen := 0, form := [], prods := [], mxs := [] }

/-- The units of the core stop, and a running bake with them: MX and VX work is discarded, pending QX effects are cancelled,
scalar writes of the cycle and MXOVF and MXPZN bits that a CSRW has cleared in it are undone (R202), queue ends are unbound,
transfers emit nothing further (R383); elements of the bake's group are guttered from now on. -/
def Core.abortBake (c : Core) (rc dcy : Nat) : Core :=
  let c := if c.seq.run then (c.trace dcy 3 5 0).endKernel rc else c
  let c := c.slog.foldl (fun (c : Core) e => c.setSreg e.r e.old) c
  let c := c.clog.foldl (fun (c : Core) e => if e.1 then c else c.setReg e.2.1 (c.reg e.2.1 ||| e.2.2)) c
  let c := c.unbindAll.invalidate
  { c with seq := { tag := c.seq.tag }, stall := none, vxs := [], vxPrev := none, late := [], slog := [], clog := [], xfers := [],
           gutter := c.gutter ++ (if c.seq.run then [(c.seq.group, c.seq.gen)] else []) }

/-- The unit that a message addresses. -/
def CoreMsg.unit : CoreMsg → UnitId
  | .launch m _ => m.unit
  | .patch m => m.unit

/-- The groups of bakes that messages would launch. -/
def launchGroups (l : List CoreMsg) : List Nat :=
  l.filterMap (fun m => match m with
    | .launch m _ => groupOf m.unit
    | .patch _ => none)

/-- May an ABORT remove a bake with this delivery tally? One that arrives as a copy leaves later bakes alone (R327, R382). -/
def inLimit (lim : Option Nat) (tally : Nat) : Bool :=
  match lim with
  | some l => decide (tally < l)
  | none => true

/-- Does the core run a bake that an ABORT of the unit leaves alone? -/
def Core.keepsBake (c : Core) (unit : UnitId) (lim : Option Nat) : Bool :=
  c.seq.run && (!inLimit lim c.seq.tally || (match groupOf unit with
    | some g => c.seq.group != g
    | none => false))

/-- What an ABORT leaves of a FIFO, of the messages it names: the LAUNCHes beyond its limit, and the PATCHes that precede
such a one. The flag says that the next named LAUNCH stays. -/
def keptMsgs (named : CoreMsg → Bool) (lim : Option Nat) : List CoreMsg → List CoreMsg × Bool
  | [] => ([], false)
  | m :: t =>
      let r := keptMsgs named lim t
      if !named m then (m :: r.1, r.2)
      else match m with
        | .launch l _ => if inLimit lim l.tally then (r.1, false) else (m :: r.1, true)
        | .patch _ => if r.2 then (m :: r.1, true) else r

/-- ABORT at the core (R29): the group form removes the group's bake and messages, a physical path every one. It stops the
units of the core whether or not a bake runs (R102, R160, R202), but for those of a bake of another group; there only the
group's transfers stop (DEDUCED from R29 and R30, log 58). -/
def Core.abort (c : Core) (gen : Nat → Nat) (rc dcy : Nat) (unit : UnitId) (lim : Option Nat) : Core :=
  let c := if c.keepsBake unit lim then { c with xfers := c.xfers.filter (fun x => groupOf unit != some x.group) }
    else c.abortBake rc dcy
  let named (m : CoreMsg) : Bool := match groupOf unit with
    | some _ => m.unit == unit
    | none => true
  let gone := (launchGroups (c.fifo.filter (fun m => named m && (match m with
    | .launch l _ => inLimit lim l.tally
    | .patch _ => false))) ++ (match groupOf unit with
      | some g => if c.seq.run then [] else [g]
      | none => [])).eraseDups
  let fifo := (keptMsgs named lim c.fifo).1
  Core.actFifo gen rc fifo.length
    { c with fifo := fifo, gutter := c.gutter ++ gone.map (fun g => (g, gen g)) }

/-- QUIESCE at the core (R29, R177): it waits for the next yield point of a bake that it names. -/
def Core.quiesce (c : Core) (unit : UnitId) : Core :=
  let hit := match groupOf unit with
    | some g => c.seq.run && c.seq.group == g
    | none => c.seq.run
  if hit then { c with seq := { c.seq with quiesce := true } } else c

end Sys2Proof.Machine
end

