-- ==== Sys2Proof/Machine/Sync.lean ====
section
/-! DEFINITION. What an operation meets at its target: the generation check and the gutter (R386), the remote windows
(R259-R262), and the sync-object stores (R264-R275). Flits that leave for other modules (R283, R284, R295, R296). -/
namespace Sys2Proof.Machine

/-! ### Gutter (R386) -/

/-- Is GEN no longer the group's (R386)? -/
def State.stale (s : State) (group gen : Nat) : Bool := s.gdGen group != gen

/-- An item dropped into the gutter: counted, and captured if the capture is free. -/
def State.gutter (s : State) (kind group gen src : Nat) : State :=
  let s := (s.setReg 0x120 (s.reg 0x120 + 1)).noteHub 0x32 kind 1
  if s.fld 0x128 63 63 = 1 then s
  else s.setReg 0x128 (BitVec.ofNat 64 (2 ^ 63 + kind * 2 ^ 59 + group * 2 ^ 47 + gen * 2 ^ 39 + src * 2 ^ 33))

/-! ### Windows (R260-R262) -/

def winOff (w i : Nat) : Nat := 0x300000 + 32 * w + 8 * i

/-- Does window w admit the access (R261)? A window with a reserved value admits nothing. SRCMOD names this module by
either number that it answers to (R399). -/
def State.winAdmits (s : State) (w space part src off len : Nat) (write : Bool) : Bool :=
  let w0 := s.reg (winOff w 0)
  let base := s.fld (winOff w 1) 53 0
  let size := s.fld (winOff w 2) 53 0
  let unit := if space = 2 then 4 else 64
  bitAt w0 63 && decide (bits w0 62 60 < 3) && bits w0 62 60 == space && bits w0 55 52 == part &&
    (bitAt w0 51 || bits w0 45 40 == src || (s.answers src && s.answers (bits w0 45 40))) && decide (base ≤ off) && decide (off + len ≤ base + size) &&
    bitAt w0 (if write then 58 else 59) && base % unit == 0 && size % unit == 0 && size != 0

/-- The windows that anything has been written to. -/
def State.windows (s : State) : List Nat :=
  ((s.regs.filter (fun e => decide (0x300000 ≤ e.1) && decide (e.1 < 0x302000))).map
    (fun e => (e.1 - 0x300000) / 32)).eraseDups

/-- Is an access of partition `part` from module `src` admitted (R261)? -/
def State.admits (s : State) (space part src off len : Nat) (write : Bool) : Bool :=
  decide (space < 3) && s.windows.any (fun w => s.winAdmits w space part src off len write)

/-- A refusal (R262): counted, and captured if HUB.WINERR is clear. -/
def State.refuse (s : State) (space : Nat) (write : Bool) (part off : Nat) (unit : UnitId) : State :=
  let s := s.noteHub 0x31 part 1
  if s.fld 0x302000 63 63 = 1 then s
  else (s.setReg 0x302000 (BitVec.ofNat 64
      (2 ^ 63 + space * 2 ^ 60 + write.toNat * 2 ^ 59 + part * 2 ^ 54 + off % 2 ^ 54))).setReg 0x302008
    (BitVec.ofNat 64 (unit.toNat * 2 ^ 32))

/-! ### Flits that leave the module (R283, R284, R295, R296) -/

def emptyFlit : Flit :=
  { type := 0, cls := 1, vc := 0, part := 0, group := 0, gen := 0, srcmod := 0, dstmod := 0, route := 0, hop := 0,
    space := 0, off := 0, len := 0, last := true, sig := false, srcu := 0, tag := 0, sent := 0, srk := 0, sref := 0,
    sinc := 0, cred := 0, rfs := false, body := [] }

/-- SRCU of a core. -/
def srcuOf (u : CoreId) : Nat := u.die * 256 + u.cluster * 16 + u.slot

/-- Alternate a to module j, active words: V and the hop codes. -/
def State.alternate (s : State) (j a : Nat) : Option Nat :=
  let w := s.reg (0x412000 + 0x20 * j + 0x10 + 8 * (a / 2))
  let v := if a % 2 = 0 then bits w 31 0 else bits w 63 32
  if natBit v 31 then some (v % 2 ^ 30) else none

/-- The next alternate for an unscheduled or SYS transfer to j: in rotation, with V and UP (R296). -/
def State.nextAlt (s : State) (j : Nat) : Option (Nat × Nat) :=
  let up := s.fld (0x412800 + 8 * j) 7 4
  let r := Tab.get (fun _ => 0) s.rot j
  ((List.range 4).map (fun i => (r + i) % 4)).findSome? (fun a =>
    if natBit up a then (s.alternate j a).map (fun h => (a, h)) else none)

/-- Flits of one operation to another module leave for the port stage: scheduled ones take alternate SALT, those of an
unscheduled transfer the alternate that its first flit to the module chose, and others the next alternate of their
destination (R296). Where no alternate exists the operation reaches nothing (log 9). -/
def State.sendFlitsOf (s : State) (tr : Option Nat) (die : Option Nat) (fs : List Flit) : State :=
  match fs with
  | [] => s
  | f :: _ =>
      let key := 64 * tr.getD 0 + f.dstmod
      let kept : Option Nat := if f.cls = 0 then some (s.fld (0x412800 + 8 * f.dstmod) 9 8)
        else match tr, Tab.get zeroN s.alts key with
          | some _, a + 1 => some a
          | _, _ => none
      let pick : Option (Nat × Nat) := match kept with
        | some a => (s.alternate f.dstmod a).map (fun h => (a, h))
        | none => s.nextAlt f.dstmod
      match pick with
      | none => s
      | some (a, h) =>
          let vc := if f.cls = 0 then 0 else if f.type = 6 || f.type = 7 then 8 + 2 * a else 2 * a
          let s := if kept.isSome then s else { s with rot := Tab.set (fun _ => 0) s.rot f.dstmod ((a + 1) % 4) }
          let s := if tr.isSome && f.cls = 1 then { s with alts := Tab.set zeroN s.alts key (a + 1) } else s
          let one (f : Flit) : TxFlit := { sent := s.now, die := die, flit := { f with route := h, hop := 0, vc := vc } }
          { s with tx := s.tx ++ fs.map one }

/-- Flits that belong to no transfer of this module. -/
def State.sendFlits (s : State) (die : Option Nat) (fs : List Flit) : State := s.sendFlitsOf none die fs

/-! ### Objects (R264, R265) -/

def syncKey (d i : Nat) : Nat := d * 32768 + i
def State.obj (s : State) (d i : Nat) : SyncObj := Tab.get SyncObj.dflt s.sync (syncKey d i)

/-- The object's value as it stood at the end of the die cycle three before `now` (R269). -/
def SyncObj.seen (o : SyncObj) (now : Nat) : Nat :=
  o.past.foldl (fun v p => if p.2 + 3 > now then p.1 else v) o.val

/-- Beyond the longest travel time of a table entry (R208), plus the three cycles of R269: older values are not read. -/
def travelLimit : Nat := 65539

/-- The object with what the die cycle in progress has done to it so far. -/
def SyncObj.today (o : SyncObj) (now : Nat) : SyncObj :=
  if o.at_ = now + 1 then o else { o with at_ := now + 1, base := o.val, rst := false, sum := 0 }

/-- The value that writes, RESETs and increments of one die cycle give, in the order of R267. -/
def SyncObj.total (o : SyncObj) : Nat := (if o.rst then 0 else o.base) + o.sum

/-- The state with object i of die d changed in the die cycle in progress; done says that its barrier completes. -/
def State.putObj (s : State) (d i : Nat) (o : SyncObj) (done : Bool) : State :=
  let old := (s.obj d i).val
  let o' : SyncObj := { o with
    val := if done then 0 else o.total % 2 ^ 32
    base := if done then 0 else o.base
    rst := done || o.rst
    sum := if done then 0 else o.sum
    past := (old, s.now) :: o.past.filter (fun p => decide (p.2 + travelLimit > s.now)) }
  { s with sync := Tab.set SyncObj.dflt s.sync (syncKey d i) o' }

/-- A write of object i of die d by firmware, the host or hardware: RESETs and increments of the same die cycle come after it
(R267). -/
def State.setObj (s : State) (d i v : Nat) : State := s.putObj d i { (s.obj d i).today s.now with base := v % 2 ^ 32 } false

/-- Where a reference leads (R199, R265, R270): an object of a store, an address outside space 2 (which no window
admits), or nothing. -/
inductive SyncPlace where
  | object (m d i : Nat)
  | refused (m off : Nat)
  | none
deriving DecidableEq, Repr

/-- The object that a global address names. -/
def placeOfAddr (a : Word) : SyncPlace :=
  let m := bits a 62 57
  if bits a 56 54 = 2 then .object m (bits a 53 52) (bits a 16 2) else .refused m (bits a 53 0)

def State.place (s : State) (p : Nat → Word) (r : SyncRef) : SyncPlace :=
  match r with
  | .store d i => .object s.me d i
  | .ns g k => match s.nsObject g k with
      | some (m, d, i) => .object m d i
      | none => .none
  | .ptr n => placeOfAddr (p n)

/-- Offset of an object in space 2 (R234). -/
def objOff (d i : Nat) : Nat := d * 2 ^ 52 + 4 * i

/-! ### Application (R267, R270, R275, R278) -/

/-- The generation and window checks of what reaches a store; what passes is kept. -/
def State.screen (s : State) (m : SyncMsg) : Bool × State :=
  let off := objOff m.die m.index
  let ok (write : Bool) : Bool := s.admits 2 m.part m.src off 4 write
  let bar := match m.op with
    | .barrier _ => true
    | _ => false
  if s.stale m.group m.gen then (false, s.gutter 2 m.group m.gen m.src)
  else if ok true && (!bar || ok false) then (true, s)
  else (false, s.refuse 2 true m.part off m.unit)

/-- The cores that wait at the barrier of a group resume OFF cycles after its completion (R276). -/
def State.releaseBarrier (s : State) (d g : Nat) : State :=
  { s with cores := s.cores.map (fun e =>
      match e.2.stall with
      | some st => match st.sync with
          | some (.barrier h none) =>
              if h == g && e.1 / 17 / 12 == d then
                (e.1, { e.2 with stall := some { st with
                  sync := some (.barrier h (some (s.now + s.relOff d (e.1 / 17 % 12)))) } })
              else e
          | _ => e
      | none => e) }

/-- Everything of one arrival cycle, in the order of R267: RESETs, increments added together, barrier completion. -/
def State.applyBatch (s : State) (d i : Nat) (ms : List SyncMsg) : State :=
  let r := ms.foldl (fun (a : List SyncMsg × State) m =>
    let x := a.2.screen m
    (if x.1 then a.1 ++ [m] else a.1, x.2)) (([] : List SyncMsg), s)
  let s := r.2
  let o := (s.obj d i).today s.now
  let sum := r.1.foldl (fun n m => match m.op with
    | .inc v => n + v
    | .barrier _ => n + 1
    | .reset => n) 0
  let o' := { o with rst := o.rst || r.1.any (fun m => m.op == .reset), sum := o.sum + sum }
  let s := s.noteDie d 0x2A 0 (o'.total / 2 ^ 32 - o.total / 2 ^ 32)
  let bar := r.1.findSome? (fun m => match m.op with
    | .barrier g => some g
    | _ => none)
  if r.1.isEmpty then s
  else match bar with
    | some g =>
        let s := if s.barGroups.contains g then s else { s with barGroups := s.barGroups ++ [g] }
        if o'.total % 2 ^ 32 = s.coreCount g then (s.putObj d i o' true).releaseBarrier d g else s.putObj d i o' false
    | none => s.putObj d i o' false

/-- The generation change sets object 0 of a barrier group to 0 (R278): of a group that a BARRIER.D has named. -/
def State.zeroBarrier (s : State) (g : Nat) : State :=
  match s.barGroups.contains g, s.nsObject g 0 with
  | true, some (m, d, i) => if m = s.me then s.setObj d i 0 else s
  | _, _ => s

/-- What has reached the store of die d by now is applied, one arrival cycle after the other, so that no operation overtakes
an earlier one to another object of the store (R268). -/
def State.applyStore (s : State) (d : Nat) : State :=
  let due : List SyncMsg := s.syncMsgs.filter (fun m => m.die == d && decide (m.due ≤ s.now))
  let rest : List SyncMsg := s.syncMsgs.filter (fun m => !(m.die == d && decide (m.due ≤ s.now)))
  let times := (due.map (fun m => (m.due, m.index))).eraseDups.insertionSort (fun a b => a.1 ≤ b.1)
  times.foldl (fun s t => s.applyBatch d t.2 (due.filter (fun m => m.due == t.1 && m.index == t.2))) { s with syncMsgs := rest }

/-! ### Direct operations (R268-R270) -/

/-- A signal flit to a store of another module: a SIGNAL's increment, or a RESET (log 18). -/
def signalFlit (me : Nat) (now : Nat) (u : CoreId) (part group gen m off : Nat) (op : SyncOp) : Flit :=
  let inc := match op with
    | .inc v => v
    | _ => 0
  { emptyFlit with type := 4, part := part, group := group, gen := gen, srcmod := me, dstmod := m, space := 2, off := off,
                   srcu := srcuOf u, sent := now % 2 ^ 24, srk := if op = .reset then 3 else 0,
                   sref := inc / 2 ^ 15, sinc := inc % 2 ^ 15 }

/-- The partition that a core's operations carry: the running bake's, else the owner's (R259, R441). -/
def Core.part (c : Core) : Nat := if c.seq.run then c.seq.part else fld (c.reg 0x298) 3 0

/-- A SIGNAL or RESET leaves core u in the die cycle in progress (R268). -/
def State.direct (s : State) (u : CoreId) (c : Core) (r : SyncRef) (op : SyncOp) : State :=
  let part := c.part
  let unit := s.unitOf u
  match s.place c.p r with
  | .none => s
  | .refused m off =>
      if s.answers m then s.refuse 2 true part off unit
      else s.sendFlits (some u.die) [{ signalFlit s.me s.cycle u part c.seq.group c.seq.gen m off op with space := 7 }]
  | .object m d i =>
      if s.answers m then
        let due := if d = u.die then s.now + 6 else s.now + s.tmin (ddOff u.die d)
        let m : SyncMsg := { due := due, die := d, index := i, op := op, part := part, src := s.me, unit := unit,
                             group := c.seq.group, gen := c.seq.gen }
        { s with syncMsgs := s.syncMsgs ++ [m] }
      else s.sendFlits (some u.die) [signalFlit s.me s.cycle u part c.seq.group c.seq.gen m (objOff d i) op]

/-- The read of a remote object that a WAIT sends (R269); its reply comes after the travel times of both ways. One of an
address outside space 2 of another module is refused there (R270; log 18). -/
def State.sendWaitRead (s : State) (u : CoreId) (c : Core) (m d i target : Nat) (adm : Bool) : SyncWait × State :=
  if s.answers m then
    (.remote m d i target adm (s.now + s.tmin (ddOff u.die d) + s.tmin (ddOff d u.die)) none, s)
  else
    let f : Flit :=
      { emptyFlit with
        type := 2, part := c.part, group := c.seq.group, gen := c.seq.gen, srcmod := s.me, dstmod := m,
        space := if adm then 2 else 7, off := objOff d i, len := 3, srcu := srcuOf u, sent := s.cycle % 2 ^ 24 }
    (.remote m d i target adm (s.now + s.tmin (mmOff s.me m) + s.tmin (mmOff m s.me)) none,
      s.sendFlits (some u.die) [f])

/-- A WAIT as it issues (R269, R270): what it waits for, which may be met at once; nothing where its reference names
nothing. -/
def State.startWait (s : State) (u : CoreId) (c : Core) (r : SyncRef) (target : Nat) : Option SyncWait × State :=
  match s.place c.p r with
  | .none => (none, s)
  | .refused m off =>
      if s.answers m then
        let s := s.refuse 2 false c.part off (s.unitOf u)
        (some (.own 0 target false), s)
      else
        let x := s.sendWaitRead u c m 0 (off / 4) target false
        (some x.1, x.2)
  | .object m d i =>
      if s.answers m then
        let ok := s.admits 2 c.part s.me (objOff d i) 4 false
        let s := if ok then s else s.refuse 2 false c.part (objOff d i) (s.unitOf u)
        if d = u.die then (some (.own i target ok), s)
        else
          let x := s.sendWaitRead u c m d i target ok
          (some x.1, x.2)
      else
        let x := s.sendWaitRead u c m d i target true
        (some x.1, x.2)

/-- Does what a WAIT or BARRIER.D waits for hold now? -/
def State.syncMet (s : State) (d : Nat) (w : SyncWait) : Bool :=
  match w with
  | .own i target ok => decide (target ≤ (if ok then (s.obj d i).seen s.now else 0))
  | .remote _ _ _ target _ _ (some v) => decide (target ≤ v)
  | .remote _ _ _ _ _ _ none => false
  | .barrier _ (some t) => decide (t ≤ s.now)
  | .barrier _ none => false

end Sys2Proof.Machine
end

