-- ==== Sys2Proof/Machine/Combine.lean ====
section
/-! DEFINITION. Channels between arrival and credit (R155-R160) and the combining unit of a cluster (R161-R166). -/
namespace Sys2Proof.Machine

/-! ### Slots (R161, R162) -/

def unitKey (d k : Nat) : Nat := 12 * d + k
def slotKey (d k n : Nat) : Nat := unitKey d k * 64 + n
def bufKey (d k src : Nat) : Nat := unitKey d k * 28 + src
def State.slot (s : State) (d k n : Nat) : Slot := Tab.get Slot.dflt s.slots (slotKey d k n)
def State.setSlot (s : State) (d k n : Nat) (x : Slot) : State :=
  { s with slots := Tab.set Slot.dflt s.slots (slotKey d k n) x }
def State.buf (s : State) (d k src : Nat) : List SrcElem := Tab.get (fun _ => []) s.srcBufs (bufKey d k src)
def State.setBuf (s : State) (d k src : Nat) (l : List SrcElem) : State :=
  { s with srcBufs := Tab.set (fun _ => []) s.srcBufs (bufKey d k src) l }

/-- Words W0 and W1 of a slot's configuration. -/
def State.cmb (s : State) (d k n w : Nat) : Word := s.reg (clOff d k (0x2000 + 32 * n + 8 * w))

/-- Bytes of a lane, and lanes of a 32 B element, by TYPE (R162). -/
def cmbWidth (ty : Nat) : Nat := if ty = 0 then 4 else if ty = 3 then 16 else 8
def cmbLanes (ty : Nat) : Nat := 32 / cmbWidth ty

/-- Value elements of a contribution, and all its elements. -/
def cmbValues (w0 : Word) : Nat := ceilDiv (bits w0 56 50) (cmbLanes (bits w0 62 60))
def cmbNeed (w0 : Word) : Nat := cmbValues w0 + if bits w0 62 60 = 3 then 1 else 0

/-- The sources that a slot names: 0-15 for cores, 16-27 for clusters. -/
def cmbSources (w0 : Word) : List Nat :=
  (List.range 28).filter (fun i => if i < 16 then natBit (bits w0 15 0) i else natBit (bits w0 43 32) (i - 16))

/-- Is the slot idle (R161)? -/
def Slot.idle (x : Slot) : Bool := x.given.all (fun n => n == 0) && x.complete.isNone && x.out.isEmpty

/-- CL.CMB[s].W2: ROUND, DONECL, DONECORE. -/
def State.cmbW2 (s : State) (d k n : Nat) : Word :=
  let x := s.slot d k n
  let w0 := s.cmb d k n 0
  let done := (cmbSources w0).filter (fun i => decide (cmbNeed w0 ≤ x.given.getD i 0))
  BitVec.ofNat 64 (x.round % 256 * 2 ^ 32 + (done.map (fun i => 2 ^ i)).foldl (· + ·) 0)

/-! ### Taking (R163) -/

/-- The lanes of a 32 B element, sign-extended to 136 bits. -/
def elemLanes (ty : Nat) (bs : List Byte) : List Nat :=
  let w := cmbWidth ty
  (List.range (cmbLanes ty)).map (fun i => ofSigned 136 (toSigned (8 * w) (natLE (slice bs (w * i) w))))

/-- An element of source src is taken into its slot: lanes added mod 2^136, a status element ORed. -/
def Slot.take (x : Slot) (w0 : Word) (now src : Nat) (e : SrcElem) : Slot :=
  let ty := bits w0 62 60
  let pos := x.given.getD src 0
  let len := bits w0 56 50
  let x := { x with given := x.given.set src (pos + 1), group := e.group, gen := e.gen,
                    valid := (padTo false (cmbNeed w0) x.valid).set pos ((padTo false (cmbNeed w0) x.valid).getD pos false || e.elem.valid) }
  let x :=
    if !e.elem.valid then x
    else if pos < cmbValues w0 then
      let base := pos * cmbLanes ty
      let acc := padTo 0 len x.acc
      { x with acc := acc.zipIdx.map (fun a =>
          if base ≤ a.2 && a.2 < base + cmbLanes ty then
            (a.1 + (elemLanes ty e.elem.bytes).getD (a.2 - base) 0) % 2 ^ 136 else a.1) }
    else { x with status := nor x.status (natLE (e.elem.bytes.take 16)) }
  if (cmbSources w0).all (fun i => decide (cmbNeed w0 ≤ x.given.getD i 0)) then { x with complete := some now } else x

/-- The credit that taking an element returns to its sender (R157, R162). -/
def State.creditFor (s : State) (d k src : Nat) (e : SrcElem) : State :=
  let unit := if src < 16 then UnitForm.toId (.core s.me d k src) else UnitForm.toId (.cluster s.me d (src - 16))
  let c : CreditFlight :=
    { due := s.now + 2, die := d, unit := unit, q := e.srcQ, from_ := UnitForm.toId (.cluster s.me d k), fromQ := e.slot,
      m := 1 }
  { s with credits := s.credits ++ [c] }

/-- Elements taken from one source: up to n, until one is held; how many of the n remain. -/
def State.takeFrom (s : State) (d k src : Nat) : Nat → Nat × State
  | 0 => (0, s)
  | n + 1 => match s.buf d k src with
      | [] => (n + 1, s)
      | e :: t =>
          let x := s.slot d k e.slot
          let w0 := s.cmb d k e.slot 0
          if cmbNeed w0 ≤ x.given.getD src 0 then (n + 1, s)
          else (((s.setBuf d k src t).setSlot d k e.slot (x.take w0 s.now src e)).creditFor d k src e).takeFrom d k src n

/-- The combining unit takes up to four elements (R163). -/
def State.cmbTake (s : State) (d k : Nat) : State :=
  ((List.range 28).foldl (fun (a : Nat × State) src => a.2.takeFrom d k src a.1) (4, s)).2

/-! ### Delivery (R164) -/

/-- A lane saturated to its delivered type, and whether it saturated. -/
def cmbLane (ty acc : Nat) : Nat × Bool :=
  let w := 8 * cmbWidth ty
  let r := clampSigned w (toSigned 136 acc)
  (ofSigned w r.1, r.2)

/-- The elements of a completed round, and the lanes counted as saturated. -/
def Slot.elems (x : Slot) (w0 : Word) : List Elem × Nat :=
  let ty := bits w0 62 60
  let len := bits w0 56 50
  let ls := (padTo 0 len x.acc).map (cmbLane ty)
  let ovf := (ls.zipIdx.map (fun p => if p.1.2 then 2 ^ (64 + p.2) else 0)).foldl (· + ·) 0
  let status := if ty = 3 then nor x.status ovf else 0
  let bytes := (ls.zipIdx.map (fun p =>
    bytesLE (if ty = 3 && natBit x.status p.2 then 0 else p.1.1) (cmbWidth ty))).flatten
  let valid (i : Nat) : Bool := x.valid.getD i false
  let vals : List Elem := (List.range (cmbValues w0)).map (fun i =>
    { valid := valid i, bytes := padTo 0 32 (slice bytes (32 * i) 32) })
  let st : List Elem := if ty = 3 then [{ valid := valid (cmbValues w0), bytes := padTo 0 32 (bytesLE status 16) }] else []
  (vals ++ st, if ty = 3 then 0 else (ls.filter (fun p => p.2)).length)

/-- A slot configuration with a reserved value (R161): its rounds are unpredictable. -/
def cmbReserved (w0 : Word) : Bool := decide (4 ≤ bits w0 62 60) || bits w0 56 50 == 0 || decide (65 ≤ bits w0 56 50)

/-- The elements of a round, of free bytes where the slot's configuration is reserved, with a free count of at most the
lanes of a round (log 10). -/
def freeRound (reserved : Bool) (n0 : Nat) (r : List Elem × Nat) : List Elem × Nat :=
  if reserved then
    (r.1.zipIdx.map (fun x => { x.1 with bytes := (List.range 32).map (fun i => (Config.free (n0 + 32 * x.2 + i)).setWidth 8) }),
     (Config.free (n0 + 32 * r.1.length)).toNat % 65)
  else r

/-- From three die cycles after completion the sums move to the delivery buffer and the next round may begin. -/
def State.cmbMove (s : State) (d k n : Nat) : State :=
  let x := s.slot d k n
  match x.complete with
  | some t =>
      if t + 3 ≤ s.now then
        let w0 := s.cmb d k n 0
        let n0 := s.freeCtr
        let r := freeRound (cmbReserved w0) n0 (x.elems w0)
        let s := if cmbReserved w0 then { s with freeCtr := n0 + 32 * r.1.length + 1 } else s
        (s.setSlot d k n { x with acc := [], valid := [], status := 0, given := List.replicate 28 0,
                                  round := (x.round + 1) % 256, complete := none, out := x.out ++ r.1 }).noteDie d 0x2B k r.2
      else s
  | none => s

/-- Every slot whose round has been complete for three die cycles. -/
def State.cmbMoves (s : State) : State :=
  s.slots.foldl (fun s e => if e.2.complete.isSome then s.cmbMove (e.1 / 64 / 12) (e.1 / 64 % 12) (e.1 % 64) else s) s

/-- The destinations of a slot: indices into its credits. -/
def cmbDests (w1 : Word) : List Nat :=
  if bitAt w1 63 then [16] else (List.range 16).filter (fun l => natBit (bits w1 15 0) l)

/-- A slot delivers up to n elements, each needing a credit at every destination (R164). -/
def State.deliver (s : State) (d k n : Nat) : Nat → State
  | 0 => s
  | f + 1 =>
      let x := s.slot d k n
      let w1 := s.cmb d k n 1
      match x.out with
      | [] => s
      | e :: t =>
          let ds := cmbDests w1
          if ds.all (fun i => decide (0 < x.credits.getD i 0)) then
            let me := UnitForm.toId (.cluster s.me d k)
            let kc := if bitAt w1 63 then bits w1 55 52 else k
            let due := s.now + s.tmax (ccOff d k kc)
            let fl (i : Nat) : ChanFlight :=
              { due := due, die := d, srcUnit := me, srcQ := n,
                dst := if i = 16 then UnitForm.toId (.cluster s.me d kc) else UnitForm.toId (.core s.me d k i),
                dstQ := bits w1 47 42, elem := e, group := x.group, gen := x.gen }
            let cr := x.credits.zipIdx.map (fun p => if ds.contains p.2 then p.1 - 1 else p.1)
            (({ s with flights := s.flights ++ ds.map fl }).setSlot d k n { x with out := t, credits := cr }).deliver d k n f
          else s

/-- The deliveries of a combining unit in one die cycle: up to four elements of each slot. -/
def State.cmbDeliver (s : State) (d k : Nat) : State := (List.range 64).foldl (fun s n => s.deliver d k n 4) s

/-! ### Arrivals and credits (R156-R160, R163) -/

/-- An element arrives at a core (R156, R159, R160). -/
def State.arriveCore (s : State) (key : Nat) (f : ChanFlight) : State :=
  let c := s.coreAt key
  if c.gutter.any (fun g => g.1 == f.group) then s.noteCore key 0x11 0 1
  else if s.stale f.group f.gen then s.gutter 3 f.group f.gen s.me
  else if f.dstQ < 48 && c.qkind f.dstQ = 2 && c.qpeer f.dstQ == f.srcUnit && c.qpq f.dstQ == f.srcQ then
    s.setCoreAt key (c.setChan f.dstQ (c.chanIn f.dstQ ++ [f.elem]))
  else s.noteCore key 0x0C 0 1

/-- An element arrives at a combining unit (R163); a misdirected one is counted under the core that sent it. One of an aborted
group that was on its way at the ABORT is dropped, as what waits in the source buffers is (DEDUCED from R166, log 62). -/
def State.arriveUnit (s : State) (d k : Nat) (f : ChanFlight) : State :=
  let src := match UnitForm.ofId f.srcUnit with
    | .core _ _ kc l => if kc = k then some l else none
    | .cluster _ _ kc => some (16 + kc)
    | _ => none
  let w0 := s.cmb d k f.dstQ 0
  let names := match src with
    | some i => bitAt w0 63 && (cmbSources w0).contains i
    | none => false
  if s.stale f.group f.gen then s.gutter 3 f.group f.gen s.me
  else if s.cores.any (fun e => e.1 / 17 / 12 == d && e.2.gutter.contains (f.group, f.gen)) then s
  else match src, names with
    | some i, true => s.setBuf d k i (s.buf d k i ++ [⟨f.dstQ, f.srcQ, f.elem, f.group, f.gen⟩])
    | _, _ => match s.localCore f.srcUnit with
        | some u => (match s.key u with
            | some key => s.noteCore key 0x0C 0 1
            | none => s)
        | none => s

/-- The arrival of an element. -/
def State.arrive (s : State) (f : ChanFlight) : State :=
  match UnitForm.ofId f.dst with
  | .core _ d k l => (match s.key ⟨d, k, l⟩ with
      | some key => s.arriveCore key f
      | none => s)
  | .cluster _ d k => s.arriveUnit d k f
  | _ => s

/-- Credits come back to the queue end or slot that spent them (R157); one that no longer names the giver gains none. -/
def State.creditBack (s : State) (r : CreditFlight) : State :=
  match UnitForm.ofId r.unit with
  | .core _ d k l => (match s.key ⟨d, k, l⟩ with
      | some key =>
          let c := s.coreAt key
          if c.qkind r.q = 3 && c.qpeer r.q == r.from_ && c.qpq r.q == r.fromQ then
            s.setCoreAt key (c.setWr r.q (c.qwr r.q + r.m))
          else s
      | none => s)
  | .cluster _ d k =>
      let i := match UnitForm.ofId r.from_ with
        | .core _ _ _ l => l
        | _ => 16
      let x := s.slot d k r.q
      s.setSlot d k r.q { x with credits := x.credits.set i (min 32 (x.credits.getD i 0 + r.m)) }
  | _ => s

/-! ### ABORT and zeroisation (R166, R441) -/

/-- A slot reset: accumulators, delivery buffer, status and contributions cleared, credits at 32; its waiting elements
leave the source buffers. Configuration and ROUND stay. -/
def State.resetSlot (s : State) (d k n : Nat) : State :=
  let s := s.setSlot d k n { round := (s.slot d k n).round }
  (List.range 28).foldl (fun s i => s.setBuf d k i ((s.buf d k i).filter (fun e => e.slot != n))) s

/-- The slots of other clusters of the die that deliver to slot n of cluster k. -/
def State.feeders (s : State) (d k n : Nat) : List (Nat × Nat) :=
  ((List.range 12).filter (fun j => natBit (bits (s.cmb d k n 0) 43 32) j)).flatMap (fun j =>
    ((List.range 64).filter (fun m =>
      let w1 := s.cmb d j m 1
      bitAt (s.cmb d j m 0) 63 && bitAt w1 63 && bits w1 55 52 == k && bits w1 47 42 == n)).map (fun m => (j, m)))

/-- The cores of the cluster that a slot names in SRCCORE and DMASK. -/
def State.namedCores (s : State) (d k n : Nat) : List CoreId :=
  let w1 := s.cmb d k n 1
  ((List.range 16).filter (fun l => natBit (bits (s.cmb d k n 0) 15 0) l || (!bitAt w1 63 && natBit (bits w1 15 0) l))).map
    (fun l => ⟨d, k, l⟩)

/-- The cores that feed a slot directly or through other slots. -/
def State.feedCores (s : State) (d : Nat) : Nat → Nat → Nat → List CoreId
  | 0, k, n => s.namedCores d k n
  | f + 1, k, n => s.namedCores d k n ++ (s.feeders d k n).flatMap (fun x => s.feedCores d f x.1 x.2)

/-- The cores that a slot delivers to, through other slots where DKIND = 1. -/
def State.destCores (s : State) (d : Nat) : Nat → Nat → Nat → List CoreId
  | 0, k, n => s.namedCores d k n
  | f + 1, k, n =>
      let w1 := s.cmb d k n 1
      s.namedCores d k n ++ (if bitAt w1 63 then s.destCores d f (bits w1 55 52) (bits w1 47 42) else [])

/-- The target slot of a reset slot follows, and its own target, while each names no core and every core that feeds it
or that it delivers to was aborted with the group (R166). -/
def State.resetOnward (s : State) (d : Nat) (member : CoreId → Bool) : Nat → Nat → Nat → State
  | 0, _, _ => s
  | f + 1, k, n =>
      let w1 := s.cmb d k n 1
      let k' := bits w1 55 52
      let n' := bits w1 47 42
      if bitAt w1 63 && k' < 12 && (s.namedCores d k' n').isEmpty
          && (s.feedCores d 4 k' n').all member && (s.destCores d 4 k' n').all member then
        (s.resetSlot d k' n').resetOnward d member f k' n'
      else s

/-- The combining effects of an ABORT or zeroisation of one core of a cluster, where the abort covers the given cores
(R166). -/
def State.abortCombine (s : State) (u : CoreId) (member : CoreId → Bool) : State :=
  let s := s.setBuf u.die u.cluster u.slot []
  (List.range 64).foldl (fun s n =>
    if (s.namedCores u.die u.cluster n).contains u then
      (s.resetSlot u.die u.cluster n).resetOnward u.die member 12 u.cluster n
    else s) s

end Sys2Proof.Machine
end

