-- ==== Sys2Proof/Machine/Views.lean ====
section
/-! DEFINITION. What reads of a CORE block and of a CL block return, and the writes that programs may make there (R12,
R13, R161, R183, R198). -/
namespace Sys2Proof.Machine

/-- A read of the CORE block at the offset of a register (R12, R13), with what hardware maintains computed. -/
def Core.readReg (c : Core) (rc now off : Nat) : Word :=
  match findReg coreRegs off with
  | none => 0
  | some (d, ix) =>
      match d.base, ix with
      | 0x200, [n] => c.s n
      | 0x288, _ => c.seqWord rc
      | 0x1008, [n] => c.qbWord n
      | 0x298, _ => setBit (d.read (c.reg off)) 62 (decide (now < c.zeroUntil))
      | _, _ => d.read (c.reg off)

/-- A read of the CL block of a cluster at an offset; beyond the block's 16 KB it names no register (R12, R343). -/
def State.readCl (s : State) (d k off : Nat) : Word :=
  match if off < 0x4000 then findReg moduleRegs (clOff d k off) else none with
  | none => 0
  | some (r, _) =>
      if r.base = 0x1000000 then
        let w := s.reg (clOff d k off)
        let l := ((unfused w).findIdx? (fun p => p == bits w 4 0)).getD 0
        Machine.setFld (r.read w) 20 16 (if bitAt w 23 then l else 0)
      else if 0x2000 ≤ off && off < 0x2800 && off % 32 = 16 then s.cmbW2 d k ((off - 0x2000) / 32)
      else r.read (s.reg (clOff d k off))

/-- A write of word w (0 or 1) of a combining slot: it takes effect only while the slot is idle (R161). -/
def State.writeCmb (s : State) (d k n w : Nat) (v : Word) : State :=
  let off := clOff d k (0x2000 + 32 * n + 8 * w)
  if (s.slot d k n).idle then
    match findReg moduleRegs off with
    | some (r, _) => s.setReg off (r.write false (s.reg off) v)
    | none => s
  else s

/-- The register write of a CSRW (R198): CL.CMB words W0 and W1, CORE.MXOVF and CORE.MXPZN; others are ignored. -/
def State.programWrite (s : State) (key : Nat) (cl : Bool) (off : Nat) (v : Word) : State :=
  let d := key / 17 / 12
  let k := key / 17 % 12
  if cl then
    if 0x2000 ≤ off ∧ off < 0x2800 ∧ (off % 32 = 0 ∨ off % 32 = 8) then
      let c := s.coreAt key
      let o := clOff d k off
      (s.writeCmb d k ((off - 0x2000) / 32) (off % 32 / 8) v).setCoreAt key { c with clog := (true, o, s.reg o) :: c.clog }
    else s
  else if 0x800 ≤ off ∧ off < 0x840 ∧ off % 8 = 0 then
    let c := s.coreAt key
    let c' := c.unstick off v
    s.setCoreAt key { c' with clog := (false, off, c.reg off &&& ~~~(c'.reg off)) :: c.clog }
  else s

/-- The CL registers that CSRWs of the core have written in the die cycle in progress, as they were before (R202). -/
def State.undoCl (s : State) (key : Nat) : State :=
  (s.coreAt key).clog.foldl (fun (s : State) e => if e.1 then s.setReg e.2.1 e.2.2 else s) s

end Sys2Proof.Machine
end

