-- ==== Sys2Proof/Machine/Qx.lean ====
section
/-! DEFINITION. The QX commands (R198, R200): scalar arithmetic, scratchpad and register access, bindings, sync
operations, SKIP and END, each in its issue cycle. -/
namespace Sys2Proof.Machine

/-- Scalar arithmetic modulo 2^64 (R198). -/
def alu (op : QxAlu) (a b : Word) : Word :=
  let n := (b.toNat) % 256
  match op with
  | .add => a + b
  | .sub => a - b
  | .mul => a * b
  | .min => if a.toInt ≤ b.toInt then a else b
  | .max => if a.toInt ≤ b.toInt then b else a
  | .and => a &&& b
  | .or => a ||| b
  | .xor => a ^^^ b
  | .shl => a <<< n
  | .shr => a >>> n
  | .sra => a.sshiftRight n

/-- SEXT (R198): bits [IMM[13:8] : IMM[5:0]] of a, sign-extended where IMM[16] is set. -/
def sextBits (a : Word) (imm : BitVec 32) : Word :=
  let hi := bitsOf imm.toNat 13 8
  let lo := bitsOf imm.toNat 5 0
  let v := bitsOf a.toNat hi lo
  if natBit imm.toNat 16 then sext64 (hi + 1 - lo) v else BitVec.ofNat 64 v

/-- The scratchpad address of SLD and SST (R198). -/
def Core.ldstAddr (c : Core) (sa : Nat) (imm : BitVec 32) : Nat :=
  bits (c.s sa + imm.signExtend 64) 18 0

/-- A pending effect is noted. -/
def Core.later (c : Core) (due issue : Nat) (e : LateEff) : Core := { c with late := c.late ++ [⟨due, issue, e⟩] }

/-- The QX commands that act on the core alone, issued in running cycle rc. -/
def Core.qx (c : Core) (rc dcy : Nat) (op : QxOp) : Core :=
  let c := { c with qxAt := rc + 1 }
  match op with
  | .sli sd imm => c.qxWrite rc sd (imm.signExtend 64)
  | .slih sd imm => c.qxWrite rc sd (setFld (c.s sd) 63 32 imm.toNat)
  | .smov sd sa => c.qxWrite rc sd (c.s sa)
  | .sgetp sd pn => c.qxWrite rc sd (c.p pn)
  | .alu .mul sd sa b => c.later (rc + 2) rc (.sreg sd (alu .mul (c.s sa) (c.qxVal b)))
  | .alu o sd sa b => c.qxWrite rc sd (alu o (c.s sa) (c.qxVal b))
  | .sext sd sa imm =>
      if bitsOf imm.toNat 13 8 < bitsOf imm.toNat 5 0 then c else c.qxWrite rc sd (sextBits (c.s sa) imm)
  | .sld sd sa imm => c.later rc rc (.load sd (c.ldstAddr sa imm))
  | .sst sa sb imm => c.later (rc + 1) rc (.store (c.ldstAddr sa imm) (c.s sb))
  | .csrw sb imm =>
      if bits (imm.setWidth 64) 31 30 ≤ 1 then
        c.later (rc + 12) rc (.csrw (bits (imm.setWidth 64) 31 30 == 1) (bits (imm.setWidth 64) 23 0) (c.s sb))
      else c
  | .qbind qn pm =>
      let w0 := c.p pm
      c.later rc rc (.bind qn w0 (if bits w0 63 62 ≥ 2 then some (c.p ((pm + 1) % 64)) else none))
  | .qunbind qn => c.later rc rc (.bind qn (setFld (c.qb0 qn) 63 62 0) none)
  | .skip t n => c.skipCmd dcy t n
  | .endT t nt nf => c.endCmd rc dcy t nt nf
  | _ => c

/-- A QX command of core u issues in running cycle rc. A WAIT or BARRIER.D that does not complete in the cycle comes
back as what it waits for. -/
def State.qx (s : State) (key : Nat) (u : CoreId) (rc : Nat) (op : QxOp) : Option SyncWait × State :=
  let c := s.coreAt key
  let mark (s : State) : State := s.atCore key (fun c => { c with qxAt := rc + 1 })
  match op with
  | .csrr sd imm =>
      let w := imm.setWidth 64
      let v := if bits w 31 30 = 0 then some (c.readReg rc s.now (bits w 23 0))
        else if bits w 31 30 = 1 then some (s.readCl u.die u.cluster (bits w 23 0)) else none
      match v with
      | some v => (none, s.atCore key (fun c => ({ c with qxAt := rc + 1 } : Core).later (rc + 12) rc (.sreg sd v)))
      | none => (none, mark s)
  | .signal r v => (none, (mark s).direct u c r (.inc (c.syncVal v)))
  | .reset r => (none, (mark s).direct u c r .reset)
  | .wait r v => (mark s).startWait u c r (c.syncVal v)
  | .barrierD g => (some (.barrier g none), (mark s).direct u c (.ns g 0) (.barrier g))
  | op => (none, s.atCore key (fun c => c.qx rc s.cycle op))

end Sys2Proof.Machine
end

