-- ==== Sys2Proof/Machine/Sx.lean ====
section
/-! DEFINITION. The stream engine (spec/08): the descriptor (R236-R238), the walk and its operations (R238-R241), where
an operation reads and writes (R233-R235, R243, R244), tags (R255-R258), window checks (R259-R262) and the signals of
transfers (R245, R271). -/
namespace Sys2Proof.Machine

/-! ### The descriptor (R236-R238) -/

def ctlSq (w : Word) : Bool := bitAt w 63
def ctlDq (w : Word) : Bool := bitAt w 62
def ctlWalk (w : Word) : Bool := bitAt w 61
def ctlTc (w : Word) : Bool := bitAt w 60
def ctlElog (w : Word) : Nat := bits w 59 56
def ctlNdim (w : Word) : Nat := bits w 55 53
def ctlIdx (w : Word) : Nat := bits w 52 51
def ctlIq (w : Word) : Nat := bits w 50 45
def ctlSig (w : Word) : Bool := bitAt w 44
def ctlSrk (w : Word) : Nat := bits w 43 42
def ctlSref (w : Word) : Nat := bits w 41 15
def ctlSinc (w : Word) : Nat := bits w 14 0

def Side.isQueue : Side → Bool
  | .queue _ => true
  | .glob _ => false

/-- The space and module that a global address names (R233). -/
def addrSpace (a : Word) : Nat := bits a 56 54
def addrMod (a : Word) : Nat := bits a 62 57
def addrOff (a : Word) : Nat := bits a 53 0

/-- A side that a transfer may have: a queue end Q0-Q47, or an address outside space 2 and the reserved spaces
(R235). -/
def Side.legal : Side → Bool
  | .queue q => decide (q < 48)
  | .glob a => addrSpace a != 2 && decide (addrSpace a < 5)

/-- A descriptor that is no reserved encoding (R235-R237). -/
def descLegal (ctl : Word) (src dst : Side) : Bool :=
  decide (ctlElog ctl ≤ 12) && decide (1 ≤ ctlNdim ctl) && decide (ctlNdim ctl ≤ 5) && ctlIdx ctl != 3 &&
    !(ctlSq ctl && ctlDq ctl) && !(src.isQueue && !ctlWalk ctl) && !(dst.isQueue && ctlWalk ctl) &&
    !(ctlSig ctl && (ctlSinc ctl == 0 || ctlSrk ctl == 3)) && src.legal && dst.legal &&
    (ctlIdx ctl == 0 || decide (ctlIq ctl < 48))

/-- COUNT and stride of dimension d (R238). -/
def Xfer.count (x : Xfer) (d : Nat) : Nat :=
  if d < ctlNdim x.ctl then bits (x.dims.getD d 0) 63 40 + 1 else 1
def Xfer.stride (x : Xfer) (d : Nat) : Int := toSigned 40 (bits (x.dims.getD d 0) 39 0)
def Xfer.esize (x : Xfer) : Nat := 2 ^ ctlElog x.ctl

/-- Elements in one value of the outermost used dimension, and in the whole walk. -/
def Xfer.inner (x : Xfer) : Nat := ((List.range (ctlNdim x.ctl - 1)).map x.count).foldl (· * ·) 1
def Xfer.total (x : Xfer) : Nat := x.inner * x.count (ctlNdim x.ctl - 1)

/-- The place of element k along the walk, from its base; iv is the index in force (R238, R239). -/
def Xfer.walked (x : Xfer) (iv k : Nat) : Int :=
  let outer : Int := if ctlIdx x.ctl = 0 then (k / x.inner : Nat) else iv
  let r := (List.range (ctlNdim x.ctl - 1)).foldl (fun (a : Int × Nat) d =>
    (a.1 + ((a.2 % x.count d : Nat) : Int) * x.stride d, a.2 / x.count d)) (0, k % x.inner)
  outer * x.stride (ctlNdim x.ctl - 1) + r.1

/-- The start of a side: its address, or position 0 of a queue end's stream. -/
def Side.base : Side → Int
  | .glob a => a.toNat
  | .queue _ => 0

/-! ### The next operation (R240) -/

/-- An operation as the walk gives it: its length, the element and byte that follow it, the elements it begins and
completes, and its positions on both sides. -/
structure Plan where
  len : Nat
  elem : Nat
  within : Nat
  ends : Nat
  src : Int
  dst : Int
deriving DecidableEq, Repr

/-- How many whole elements from element k on ascend without gaps from the place `wa` within lim bytes; n of them are
known to, and f bounds the others. -/
def wholeRun (place : Nat → Int) (esize lim stop : Nat) (wa : Int) (k : Nat) : Nat → Nat → Nat
  | 0, n => n
  | f + 1, n =>
      if (n + 1) * esize ≤ lim ∧ k + n < stop ∧ place (k + n) = wa + ((n * esize : Nat) : Int) then
        wholeRun place esize lim stop wa k f (n + 1)
      else n

/-- An operation from element k, byte b, with lim bytes to the next boundary of 256 B: its length, the element and byte
after it, and the elements it completes. It is a run of whole elements, or a piece of an element that a boundary cuts. -/
def runFrom (place : Nat → Int) (esize lim stop : Nat) (wa : Int) (k b : Nat) : Nat × Nat × Nat × Nat :=
  let n := if b = 0 then wholeRun place esize lim stop wa k 256 0 else 0
  let piece := min (esize - b) lim
  if 0 < n then (n * esize, k + n, 0, n)
  else if b + piece < esize then (piece, k, b + piece, 0)
  else (piece, k + 1, 0, 1)

/-- The next operation of a transfer: within one aligned 256 B block on each side, and within its row where an index
stream gives the rows' places. -/
def Xfer.plan (x : Xfer) (iv : Nat) : Plan :=
  let e := x.esize
  let walkDst := ctlWalk x.ctl
  let place (k : Nat) : Int := (if walkDst then x.dst.base else x.src.base) + x.walked iv k
  let wa := place x.elem + (x.within : Nat)
  let oa := (if walkDst then x.src.base else x.dst.base) + ((x.elem * e + x.within : Nat) : Int)
  let lim := min (256 - (wa % 256).toNat) (256 - (oa % 256).toNat)
  let stop := if ctlIdx x.ctl = 0 then x.total else (x.elem / x.inner + 1) * x.inner
  let r := runFrom place e lim stop wa x.elem x.within
  { len := r.1, elem := r.2.1, within := r.2.2.1, ends := r.2.2.2, src := if walkDst then oa else wa,
    dst := if walkDst then wa else oa }

/-- A side at a position of the walk. -/
def Side.at_ (sd : Side) (pos : Int) : Side :=
  match sd with
  | .queue q => .queue q
  | .glob _ => .glob (BitVec.ofNat 64 ((pos % (2 ^ 64 : Int)).toNat))

/-! ### Where a global address leads (R234, R235) -/

/-- DRAM of a stack, the scratchpad of a logical core, another module, a space that is refused, or no storage. -/
inductive Place where
  | dram (m byte off : Nat)
  | spad (u : CoreId) (byte off : Nat)
  | away (m space off : Nat)
  | shut (space off : Nat)
  | nowhere (space off : Nat)
deriving DecidableEq, Repr

def State.placeAt (s : State) (a : Word) : Place :=
  let off := addrOff a
  if !s.answers (addrMod a) then .away (addrMod a) (addrSpace a) off
  else match addrSpace a with
    | 0 => if bits a 35 0 < 12 * 2 ^ 32 then .dram (bits a 38 36) (bits a 35 0) off else .nowhere 0 off
    | 1 =>
        let u : CoreId := ⟨bits a 53 52, bits a 51 48, bits a 47 44⟩
        if s.hasCore u then .spad u (bits a 18 0) off else .nowhere 1 off
    | 3 => .shut 3 off
    | 4 => .shut 4 off
    | n => .nowhere n off

/-- Does the operation need a tag (R255)? Not where it is scheduled and both sides lie in scratchpads of the die. -/
def State.needsTag (s : State) (die : Nat) (tc : Bool) (src dst : Side) : Bool :=
  let on (x : Side) : Bool := match x with
    | .queue _ => true
    | .glob a => (match s.placeAt a with
        | .spad u _ _ => u.die == die
        | _ => false)
  tc || !(on src && on dst)

/-! ### Tags (R255, R256) -/

def tpOff (d p : Nat) : Nat := cdOff d (0x3000 + 8 * p)
def State.pool (s : State) (d : Nat) : TagPool := Tab.get (fun _ => []) s.tags d
def State.setPool (s : State) (d : Nat) (l : TagPool) : State := { s with tags := Tab.set (fun _ => []) s.tags d l }
def State.held (s : State) (d p : Nat) : Nat := ((s.pool d).filter (fun t => t.2 == p)).length
def State.res (s : State) (d p : Nat) : Nat := s.fld (tpOff d p) 15 0
def State.lim (s : State) (d p : Nat) : Nat := s.fld (tpOff d p) 47 32

/-- SHUSED: tags in use beyond the reservations. -/
def State.shused (s : State) (d : Nat) : Nat := ((List.range 16).map (fun p => s.held d p - s.res d p)).foldl (· + ·) 0

/-- May partition p be granted a tag on die d (R256)? -/
def State.tagFree (s : State) (d p : Nat) : Bool :=
  decide (s.held d p < s.res d p) ||
    (decide (s.held d p < s.lim d p) &&
      decide (s.shused d < 32768 - ((List.range 16).map (s.res d)).foldl (· + ·) 0))

/-- CD.TAGSTAT of a die. -/
def State.tagStat (s : State) (d : Nat) : Word :=
  BitVec.ofNat 64 ((32768 - (s.pool d).length) * 2 ^ 32 + s.shused d)

/-- A tag taken: the lowest free index (log 14). -/
def State.takeTag (s : State) (d p : Nat) : Nat × State :=
  let used := (s.pool d).map (fun t => t.1)
  let i := ((List.range (used.length + 1)).find? (fun i => !used.contains i)).getD 0
  (i, (s.setPool d (s.pool d ++ [(i, p)])).noteDie d 0x21 p 1)

/-- A tag back in its pool. -/
def State.freeTag (s : State) (d i : Nat) : State := s.setPool d ((s.pool d).filter (fun t => t.1 != i))

/-! ### Signals of transfers (R245, R271) -/

def State.sig (s : State) (id : Nat) : Option XferSig := s.sigs.find? (fun g => g.id == id)
def State.mapSig (s : State) (id : Nat) (f : XferSig → XferSig) : State :=
  { s with sigs := s.sigs.map (fun g => if g.id == id then f g else g) }

/-- The global address of the object that a reference names; none where it names nothing. -/
def State.refAddr (s : State) (p : Nat → Word) (rk ref : Nat) : Option Word :=
  match refOf rk ref with
  | none => none
  | some (.ptr n) => some (p n)
  | some r => match s.place p r with
      | .object m d i => some (BitVec.ofNat 64 (m * 2 ^ 57 + 2 * 2 ^ 54 + objOff d i))
      | _ => none

/-- The modules and the die that a destination adds to its transfer. -/
def State.noteDst (s : State) (u : CoreId) (id : Nat) (dst : Side) : State :=
  let m := match dst with
    | .queue _ => s.me
    | .glob a => addrMod a
  let on := match dst with
    | .queue _ => true
    | .glob a => (match s.placeAt a with
        | .spad v _ _ => v.die == u.die
        | _ => false)
  s.mapSig id (fun g => { g with onDie := g.onDie && on, mods := if g.mods.contains m then g.mods else g.mods ++ [m] })

/-- Case A, B or C of R271. -/
inductive SigCase where
  | onDie | riding (m : Nat) | after
deriving DecidableEq, Repr

def State.sigCase (s : State) (g : XferSig) : SigCase :=
  let m := addrMod g.addr
  let d := bits g.addr 53 52
  if !g.tc && g.onDie && s.answers m && d == g.core.die then .onDie
  else match g.mods with
    | [j] => if j = m || (s.answers j && s.answers m) then .riding m else .after
    | _ => .after

/-- Have all operations of the transfer taken effect; have all their tags returned? -/
def State.effected (s : State) (id : Nat) : Bool := s.ops.all (fun o => o.xfer != id || o.stage == .complete)
def State.returned (s : State) (id : Nat) : Bool := s.ops.all (fun o => o.xfer != id)

/-- May the signal be delivered now? -/
def State.sigReady (s : State) (g : XferSig) : Bool :=
  g.armed && (match s.sigCase g with
    | .after => s.returned g.id
    | _ => s.effected g.id)

/-- The signal goes to its store, or in a flit to its module (R271); one outside space 2 is refused (R270). -/
def State.sendSig (s : State) (g : XferSig) : State :=
  let s := { s with sigs := s.sigs.filter (fun h => h.id != g.id) }
  let m := addrMod g.addr
  let unit := s.unitOf g.core
  if g.ridden then s
  else if s.answers m then
    if addrSpace g.addr != 2 then s.refuse 2 true g.part (addrOff g.addr) unit
    else
      let d := bits g.addr 53 52
      let due := match s.sigCase g with
        | .after => if d = g.core.die then s.now + 1 else s.now + s.tmin (ddOff g.core.die d)
        | _ => g.lastEff + 1
      let q : SyncMsg := { due := due, die := d, index := bits g.addr 16 2, op := .inc g.inc, part := g.part, src := s.me,
                           unit := unit, group := g.group, gen := g.gen }
      { s with syncMsgs := s.syncMsgs ++ [q] }
  else
    let f := signalFlit s.me s.cycle g.core g.part g.group g.gen m (addrOff g.addr) (.inc g.inc)
    s.sendFlits (some g.core.die) [{ f with space := addrSpace g.addr }]

/-! ### Completion (R255) -/

def State.op (s : State) (id : Nat) : Option SxOp := s.ops.find? (fun o => o.id == id)
def State.setOp (s : State) (o : SxOp) : State := { s with ops := s.ops.map (fun x => if x.id == o.id then o else x) }
def State.dropOp (s : State) (id : Nat) : State := { s with ops := s.ops.filter (fun x => x.id != id) }

/-- The operation has taken effect or was refused: its transfer counts it, and without a tag it is gone. -/
def State.completeOp (s : State) (o : SxOp) : State :=
  let s := if o.tag.isSome then s.setOp { o with stage := .complete } else s.dropOp o.id
  let s := s.mapSig o.xfer (fun g => { g with lastEff := max g.lastEff s.now })
  let c := s.coreAt o.key
  let xs : List Xfer := (c.xfers.map (fun x => if x.id == o.xfer then { x with open_ := x.open_ - 1 } else x)).filter
    (fun x => !(x.done && x.open_ == 0))
  let s := if xs.any (fun x => x.id == o.xfer) then s else { s with alts := s.alts.filter (fun e => e.1 / 64 != o.xfer) }
  s.setCoreAt o.key { c with xfers := xs }

/-! ### Sources (R241, R243, R262) -/

/-- X of R243: the running cycles from emission to effect in the issuing core. -/
def State.xTime (s : State) (u : CoreId) (src : Side) : Nat :=
  let own := s.tmax (ccOff u.die u.cluster u.cluster)
  match src with
  | .queue _ => own
  | .glob a => match s.placeAt a with
      | .spad v _ _ => if v.die = u.die then s.tmax (ccOff u.die u.cluster v.cluster) else s.tmax (ddOff u.die v.die)
      | .dram m _ _ => s.tmax (drrOff u.die m)
      | .away j sp off =>
          let trip := s.tmax (mmOff s.me j) + s.tmax (mmOff j s.me)
          if sp = 0 then
            let m := bitsOf off 38 36
            trip + s.tmax (drrOff (m / 2) m)
          else trip
      | _ => own

/-- The 64 B lines that bytes [b, b + n) of a stack touch, each with its offset in the line, its length and the position
of its bytes (R242). -/
def linesOf (b n : Nat) : List (Nat × Nat × Nat × Nat) :=
  if n = 0 then []
  else (List.range ((b + n - 1) / 64 + 1 - b / 64)).map (fun i =>
    let line := b / 64 + i
    let lo := max b (64 * line)
    let hi := min (b + n) (64 * line + 64)
    (line, lo - 64 * line, hi - lo, lo - b))

def State.dramOf (s : State) (m : Nat) : Dram := Tab.get Dram.dflt s.dram m
def State.setDram (s : State) (m : Nat) (x : Dram) : State := { s with dram := Tab.set Dram.dflt s.dram m x }

/-- Requests enter a queue of a controller, a partition's or the pool's (16) (R250); a stale write is dropped into the
gutter on entry (R386). -/
def State.enqueueDram (s : State) (m q src : Nat) (rs : List DramReq) : State :=
  rs.foldl (fun s r =>
    if r.write.isSome && r.for_ != .host && s.stale r.group r.gen then s.gutter 1 r.group r.gen src
    else
      let x := s.dramOf m
      s.setDram m { x with queues := Tab.set (fun _ => []) x.queues q (Tab.get (fun _ => []) x.queues q ++ [r]) }) s

/-- The queue that an operation enters: its partition's, or the pool's in the unscheduled class. -/
def SxOp.queue (o : SxOp) : Nat := if o.tc then 16 else o.part

/-- SRCU, TAG and the other header fields of an operation's flits (R283). -/
def State.opFlit (s : State) (o : SxOp) (m : Nat) : Flit :=
  { emptyFlit with
    cls := o.tc.toNat, part := o.part, group := o.group, gen := o.gen, srcmod := s.me, dstmod := m,
    srcu := srcuOf o.core, tag := o.tag.getD 0, sent := (s.cycle + o.s - s.now) % 2 ^ 24 }

/-- The ready bit of a stack (R418), and the memory fault of an access to one that is not ready (R419). -/
def State.memReady (s : State) (m : Nat) : Bool := s.fld 0x430010 (41 + m) (41 + m) == 1
def State.memFault (s : State) (group part : Nat) : State :=
  { s with raised := s.raised ++ [{ cls := 1, unit := UnitForm.toId (.group group), parts := 2 ^ part, capture := none }] }

/-- The capture that names a DRAM line, and the stack and line it names. -/
def lineCapture (m line : Nat) : Word := BitVec.ofNat 64 (m * 2 ^ 32 + line)
def captureLine (w : Word) : Nat × Nat := (bits w 63 32, bits w 31 0)

/-- The memory fault of an uncorrectable line (R254). -/
def State.lineFault (s : State) (m line group part : Nat) : State :=
  { s with raised := s.raised ++
      [{ cls := 1, unit := UnitForm.toId (.group group), parts := 2 ^ part, capture := some (lineCapture m line) }] }

/-- The source of an operation read at its emission: own scratchpad and queue ends now, DRAM and other modules by a
request, other cores when the travel time has passed. A refused source gives zero bytes, invalid at a channel (R262). -/
def State.startSource (s : State) (o : SxOp) : State :=
  let unit := s.unitOf o.core
  let zero : SxOp := { o with data := List.replicate o.len 0, valid := false, stage := .ready, due := s.now }
  if o.bubble then s.setOp zero
  else match o.src with
    | .queue _ => s
    | .glob a => match s.placeAt a with
        | .spad v b off =>
            if v = o.core then
              if s.admits 1 o.part s.me off o.len false then
                let r := (s.coreAt o.key).readFrom 10 b o.len
                (s.atCore o.key (fun c => (c.readFrom 10 b o.len).2.blame 0 2 o.btag)).setOp
                  { o with data := r.1, stage := .ready, due := s.now }
              else (s.refuse 1 false o.part off unit).setOp zero
            else
              let t := if v.die = o.core.die then
                  (if o.tc then s.tmin (ccOff o.core.die o.core.cluster v.cluster)
                    else s.tmax (ccOff o.core.die o.core.cluster v.cluster))
                else s.tmin (ddOff o.core.die v.die)
              s.setOp { o with stage := .source, due := s.now + t }
        | .dram m b off =>
            if s.admits 0 o.part s.me off o.len false && !s.memReady m then (s.memFault o.group o.part).setOp zero
            else if s.admits 0 o.part s.me off o.len false then
              let ls := linesOf b o.len
              let rq (l : Nat × Nat × Nat × Nat) : DramReq :=
                { ready := s.now, line := l.1, off := l.2.1, len := l.2.2.1, write := none, for_ := .op o.id l.2.2.2,
                  group := o.group, gen := o.gen, part := o.part }
              (s.setOp { o with data := List.replicate o.len 0, stage := .dramRead, lines := ls.length }).enqueueDram m
                o.queue s.me (ls.map rq)
            else (s.refuse 0 false o.part off unit).setOp zero
        | .away m sp off =>
            let f := { s.opFlit o m with type := 2, space := sp, off := off, len := o.len - 1 }
            (s.setOp { o with data := List.replicate o.len 0, stage := .remoteRead, lines := o.len }).sendFlitsOf (some o.xfer)
              (some o.core.die) [f]
        | .shut sp off => (s.refuse sp false o.part off unit).setOp zero
        | .nowhere sp off =>
            (if s.admits sp o.part s.me off o.len false then s else s.refuse sp false o.part off unit).setOp zero

/-! ### Destinations (R243, R244, R262) -/

/-- The flits of a write or read reply of the bytes (R284). -/
def dataFlits (f : Flit) (bs : List Byte) : List Flit :=
  if bs.length ≤ 224 then [{ f with len := bs.length - 1, last := true, body := bs }]
  else [{ f with len := 223, last := false, sig := false, body := bs.take 224 },
        { f with off := f.off + 224, len := bs.length - 225, last := true, body := bs.drop 224 }]

/-- The arrival of scheduled data after its die cycle s + MAX is a link fault of the group (R215). -/
def State.lateLink (s : State) (group part : Nat) : State :=
  { s with raised := s.raised ++ [{ cls := 2, unit := UnitForm.toId (.group group), parts := 2 ^ part, capture := none }] }

/-- The travel-time entry between a core and the scratchpad of another. -/
def spadOff (u v : CoreId) : Nat := if v.die = u.die then ccOff u.die u.cluster v.cluster else ddOff u.die v.die

/-- Is scheduled data of an operation that travels between a core and the scratchpad of another late: past s + MAX, with s
the die cycle of its emission (R215, R241)? -/
def State.lateBy (s : State) (o : SxOp) (v : CoreId) : Bool := !o.tc && decide (o.s + s.tmax (spadOff o.core v) < s.now)

/-- Data in hand for a place outside the issuing core starts on its way (R244): it takes effect in another scratchpad at the
times of R210, counted from the emission, DRAM by its queue, other modules by flits; the last operation of a transfer that
stays on one module carries its signal there (R271, case B). -/
def State.startDest (s : State) (o : SxOp) : State :=
  let unit := s.unitOf o.core
  if o.bubble then s.completeOp o
  else match o.dst with
    | .queue _ => s
    | .glob a => match s.placeAt a with
        | .spad v _ _ =>
            let t := if v.die = o.core.die && !o.tc then s.tmax (spadOff o.core v) else s.tmin (spadOff o.core v)
            s.setOp { o with stage := .ready, due := max s.now (o.s + t) }
        | .dram m b off =>
            if s.admits 0 o.part s.me off o.len true && !s.memReady m then (s.memFault o.group o.part).completeOp o
            else if s.admits 0 o.part s.me off o.len true then
              let ls := linesOf b o.len
              let rq (l : Nat × Nat × Nat × Nat) : DramReq :=
                { ready := max s.now (o.s + s.tmin (drwOff o.core.die m)), line := l.1, off := l.2.1, len := l.2.2.1,
                  write := some (slice o.data l.2.2.2 l.2.2.1), for_ := .op o.id 0, group := o.group, gen := o.gen,
                  part := o.part }
              (s.setOp { o with stage := .dramWrite, lines := ls.length }).enqueueDram m o.queue s.me (ls.map rq)
            else (s.refuse 0 true o.part off unit).completeOp o
        | .away m sp off =>
            let g := s.sig o.xfer
            let rides := o.last && (match g with
              | some g => s.sigCase { g with armed := true } == .riding m && addrSpace g.addr == 2
              | none => false)
            let f := { s.opFlit o m with type := 1, space := sp, off := off, sig := rides }
            let f := match g, rides with
              | some g, true => { f with srk := 0, sref := bits g.addr 53 52 * 2 ^ 25 + bits g.addr 16 2 * 2 ^ 10,
                                         sinc := g.inc }
              | _, _ => f
            let s := if rides then s.mapSig o.xfer (fun g => { g with ridden := true }) else s
            (s.setOp { o with stage := .remoteWrite }).sendFlitsOf (some o.xfer) (some o.core.die) (dataFlits f o.data)
        | .shut sp off => (s.refuse sp true o.part off unit).completeOp o
        | .nowhere sp off =>
            (if s.admits sp o.part s.me off o.len true then s else s.refuse sp true o.part off unit).completeOp o

/-- Does the operation take effect in the issuing core? -/
def State.ownDst (s : State) (u : CoreId) (dst : Side) : Bool :=
  match dst with
  | .queue _ => true
  | .glob a => match s.placeAt a with
      | .spad v _ _ => v == u
      | _ => false

/-- An operation whose source data is in hand goes on to its destination, unless that lies in the issuing core. -/
def State.onward (s : State) (id : Nat) : State :=
  match s.op id with
  | some o => if o.stage == .ready && !s.ownDst o.core o.dst then s.startDest o else s
  | none => s

/-- The elements that an operation's bytes complete at a queue end: they go on from the bytes its transfer left. -/
def State.landQueue (s : State) (o : SxOp) (q : Nat) : State :=
  let fill := Tab.get (fun _ => []) s.fills o.xfer ++ o.data.map (fun b => (o.valid, b))
  let e := max 1 o.esize
  let es : List Elem := (List.range o.ends).map (fun i =>
    let l := slice fill (i * e) e
    let ok := l.all (fun x => x.1)
    { valid := ok, bytes := padTo 0 e (l.map (fun x => if ok then x.2 else 0)) })
  let s := { s with fills := Tab.set (fun _ => []) s.fills o.xfer (fill.drop (o.ends * e)) }
  s.atCore o.key (fun c =>
    if c.noPush q then c.ev 0x0B q o.ends
    else if es.isEmpty then c
    else c.pushElems 11 q es)

/-- The effect of an operation in its issuing core (R243). -/
def State.land (s : State) (o : SxOp) : State :=
  let unit := s.unitOf o.core
  match o.dst with
  | .queue q => (s.landQueue o q).completeOp o
  | .glob a => match s.placeAt a with
      | .spad _ b off =>
          if o.bubble then s.completeOp o
          else if s.admits 1 o.part s.me off o.len true then (s.atCore o.key (fun c => c.writeTo 11 b o.data)).completeOp o
          else (s.refuse 1 true o.part off unit).completeOp o
      | _ => s.completeOp o

/-- The effect of an operation in another core's scratchpad (R143, R210, R215, R244, R262): scheduled data through EXT-S,
unscheduled data through the EXT-U buffer. -/
def State.landOther (s : State) (o : SxOp) (v : CoreId) (b off : Nat) : State :=
  match s.key v with
  | none => s.completeOp o
  | some key =>
      if s.lateBy o v then (s.lateLink o.group o.part).completeOp o
      else if !s.admits 1 o.part s.me off o.len true then (s.refuse 1 true o.part off (s.unitOf o.core)).completeOp o
      else if o.tc then
        let c := s.coreAt key
        let a : ExtAcc := { addr := b, len := o.len, write := some o.data, for_ := .op o.id }
        (s.setCoreAt key { c with extU := c.extU ++ [a] }).setOp { o with stage := .ext }
      else (s.atCore key (fun c => c.writeTo 13 b o.data)).completeOp o

/-- The bytes of another core's scratchpad read for an operation, with their ECC check (R147, R215, R220, R262);
unscheduled reads wait in its EXT-U buffer. -/
def State.readOther (s : State) (o : SxOp) (v : CoreId) (b off : Nat) : State :=
  let zero : SxOp := { o with data := List.replicate o.len 0, valid := false, stage := .ready, due := s.now }
  match s.key v with
  | none => s.setOp zero
  | some key =>
      if s.lateBy o v then (s.lateLink o.group o.part).completeOp o
      else if !s.admits 1 o.part s.me off o.len false then (s.refuse 1 false o.part off (s.unitOf o.core)).setOp zero
      else if o.tc then
        let c := s.coreAt key
        let a : ExtAcc := { addr := b, len := o.len, write := none, for_ := .op o.id }
        (s.setCoreAt key { c with extU := c.extU ++ [a] }).setOp { o with stage := .ext }
      else
        let bs := (List.range o.len).map (fun i => if b + i < spadEnd then (s.coreAt key).byteOld (b + i) else 0)
        let units := ((List.range o.len).map (fun i => (b + i) / 16)).eraseDups
        let s := s.atCore key (fun c => units.foldl (fun (c : Core) n => c.eccRead n) c)
        s.setOp { o with data := bs, stage := .ready, due := s.now }

/-- Has the time of an operation's next action on this module come? -/
def State.opDue (s : State) (o : SxOp) : Bool :=
  match o.stage with
  | .source => decide (o.due ≤ s.now)
  | .ready => match o.dueRc with
      | some t => decide (t ≤ (s.coreAt o.key).rc s.now) && (s.coreAt o.key).stall.isNone
      | none => decide (o.due ≤ s.now)
  | _ => false

/-- An operation acts: its source is read, or its data takes effect (R243, R244). -/
def State.opAct (s : State) (o : SxOp) : State :=
  match o.stage with
  | .source => (match o.src with
      | .glob a => (match s.placeAt a with
          | .spad v b off => (s.readOther o v b off).onward o.id
          | _ => s)
      | .queue _ => s)
  | .ready =>
      if s.ownDst o.core o.dst then s.land o
      else (match o.dst with
        | .glob a => (match s.placeAt a with
            | .spad v b off => s.landOther o v b off
            | _ => s)
        | .queue _ => s)
  | _ => s

/-- Is data of the core late in running cycle rc (R216, R243): due in its own scratchpad or queue ends and not there? -/
def State.lateData (s : State) (key rc : Nat) : Bool :=
  s.ops.any (fun o => o.key == key && (match o.dueRc with
    | some t => decide (t ≤ rc) && (match o.stage with
        | .dramRead => true
        | .remoteRead => true
        | .ext => true
        | .source => decide (s.now < o.due)
        | _ => false)
    | none => false))

/-- The channel pushes that operations due in running cycle rc make (R243, R158). -/
def State.landNeeds (s : State) (key rc : Nat) : List QueueNeed :=
  (s.ops.filterMap (fun o => match o.dueRc, o.dst with
    | some t, .queue q => if o.key = key ∧ t = rc ∧ o.stage != .complete then
        (((s.coreAt key).pushNeed q o.ends).head?) else none
    | _, _ => none))

/-! ### Issue and emission (R196, R239, R241, R258) -/

/-- SX.GO in running cycle rc (R195, R196, R236): the descriptor is read through SX-R after the matrix and vector reads
of the cycle; a reserved encoding starts nothing (log 8). -/
def State.sxGo (s : State) (key : Nat) (u : CoreId) (rc : Nat) (cmd : SxCmd) : State :=
  let c0 := (s.coreAt key).beginCycle rc
  let a := bits (c0.p cmd.pd) 18 0
  let r := c0.readFrom 10 a 64
  let w (i : Nat) : Word := BitVec.ofNat 64 (natLE (slice r.1 (8 * i) 8))
  let ctl := w 2
  let src : Side := match cmd.ovs with
    | some n => .glob (c0.p n)
    | none => if ctlSq ctl then .queue (bits (w 0) 5 0) else .glob (w 0)
  let dst : Side := match cmd.ovd with
    | some n => .glob (c0.p n)
    | none => if ctlDq ctl then .queue (bits (w 1) 5 0) else .glob (w 1)
  let s := s.atCore key (fun c =>
    let c := c.beginCycle rc
    { (c.readFrom 10 a 64).2.blame c.faults.length 2 c.seq.tag with sxAt := rc + 1 })
  if !descLegal ctl src dst then s
  else
    let id := s.xferSeq
    let c := s.coreAt key
    let x : Xfer :=
      { id := id, btag := c.seq.tag, c0 := rc, src := src, dst := dst, ctl := ctl, dims := (List.range 5).map (fun i => w (3 + i)), elem := 0,
        within := 0, row := none, index := none, rest := [], emitted := 0, open_ := 0, done := false,
        group := c.seq.group, gen := c.seq.gen, part := c.part }
    let s := { s with xferSeq := id + 1 }.setCoreAt key { c with xfers := c.xfers ++ [x] }
    match ctlSig ctl, s.refAddr c.p (ctlSrk ctl) (ctlSref ctl) with
    | true, some ad =>
        let g : XferSig := { id := id, core := u, part := c.part, group := c.seq.group, gen := c.seq.gen, addr := ad,
                             inc := ctlSinc ctl, tc := ctlTc ctl, onDie := true, mods := [], armed := false,
                             ridden := false, lastEff := 0 }
        { s with sigs := s.sigs ++ [g] }
    | _, _ => s

/-- Does the core run in forerunner mode (R258), and with which limit? -/
def Core.forerunner (c : Core) : Bool := bitAt (c.reg 0x290) 63
def Core.olim (c : Core) : Nat := bits (c.reg 0x290) 11 0

/-- Tags that operations of a transfer hold. -/
def State.xferTags (s : State) (id : Nat) : Nat := (s.ops.filter (fun o => o.xfer == id && o.tag.isSome)).length

/-- The transfer that emits in running cycle rc (R241, R258): the oldest with operations left. -/
def State.emitter (s : State) (key rc : Nat) : Option Xfer :=
  let c := s.coreAt key
  c.xfers.find? (fun x => decide (x.c0 < rc) && !x.done &&
    !(c.forerunner && decide (c.olim ≤ s.xferTags x.id)))

/-- Does the next operation begin a row of an index stream? -/
def Xfer.newRow (x : Xfer) : Bool := ctlIdx x.ctl != 0 && x.row != some (x.elem / x.inner)

/-- The index popped from IQ for a new row (R239). -/
def popIndex (c : Core) (x : Xfer) : Option Nat × Core :=
  let q := ctlIq x.ctl
  if c.noPop q then (none, c.ev 0x0B q 1)
  else
    let r := c.popElems 10 q 1
    match r.1 with
    | e :: _ => (if e.valid then some (natLE (e.bytes.take (4 * ctlIdx x.ctl))) else none, r.2)
    | [] => (none, r.2)

/-- The index of the row of the next operation: for a new row the one that its emission will pop (R239). -/
def State.nextIndex (s : State) (key : Nat) (x : Xfer) : Option Nat :=
  let c := s.coreAt key
  if x.newRow then (popIndex (c.beginCycle (c.rc s.now)) x).1 else x.index

/-- The channel pops of the next operation (R158, R241): its index, and its source's elements unless it is a bubble. -/
def State.emitNeeds (s : State) (key : Nat) (x : Xfer) : List QueueNeed :=
  let c := s.coreAt key
  let iv := s.nextIndex key x
  (if x.newRow then c.popNeed (ctlIq x.ctl) 1 else []) ++
    (match x.src with
      | .queue q => if ctlIdx x.ctl != 0 && iv.isNone then []
          else c.popNeed q (c.streamElems q (x.plan (iv.getD 0)).len x.rest.length)
      | .glob _ => [])

/-- Does the next operation need a tag? One of a bubble row as one of index 0 (DESIGN CHOICE, log 12). -/
def State.emitTag (s : State) (key : Nat) (u : CoreId) (x : Xfer) : Bool :=
  let iv := s.nextIndex key x
  let p := x.plan (iv.getD 0)
  s.needsTag u.die (ctlTc x.ctl) (x.src.at_ p.src) (x.dst.at_ p.dst)

/-- The emission of transfer x's next operation in running cycle rc, with its tag. -/
def State.emit (s : State) (key : Nat) (u : CoreId) (rc : Nat) (x : Xfer) (tag : Option Nat) : State :=
  let fr := (s.coreAt key).forerunner
  let c1 := (s.coreAt key).beginCycle rc
  let ix := if x.newRow then popIndex c1 x else (x.index, c1)
  let x := if x.newRow then { x with row := some (x.elem / x.inner), index := ix.1 } else x
  let bubble := ctlIdx x.ctl != 0 && x.index.isNone
  let p := x.plan (x.index.getD 0)
  let got : List (Bool × Byte) × List (Bool × Byte) × Core := match x.src with
    | .queue q =>
        if bubble then ([], x.rest, ix.2)
        else if ix.2.noPop q then (List.replicate p.len (false, 0), x.rest, ix.2.ev 0x0B q p.ends)
        else ix.2.stream 10 q p.len x.rest
    | .glob _ => ([], x.rest, ix.2)
  let x' : Xfer := { x with elem := p.elem, within := p.within, rest := got.2.1, emitted := x.emitted + 1,
                            open_ := x.open_ + 1, done := decide (x.total ≤ p.elem) }
  let s := s.atCore key (fun _ =>
    let c := (got.2.2.blame c1.faults.length 2 x.btag).ev 0x10 (ctlTc x.ctl).toNat 1
    { c with emAt := rc + 1, heldTag := none, xfers := c.xfers.map (fun y => if y.id == x.id then x' else y) })
  let src := x.src.at_ p.src
  let dst := x.dst.at_ p.dst
  let own := s.ownDst u dst
  let o : SxOp :=
    { id := s.opSeq, btag := x.btag, key := key, core := u, part := x.part, group := x.group, gen := x.gen, xfer := x.id, s := s.now,
      tc := ctlTc x.ctl, src := src, dst := dst, len := p.len, esize := x.esize, ends := p.ends, bubble := bubble,
      valid := if x.src.isQueue then got.1.all (fun b => b.1) else true, data := got.1.map (fun b => b.2), tag := tag,
      stage := .ready, due := s.now, dueRc := if own && !fr then some (rc + s.xTime u src) else none, lines := 0,
      last := x'.done }
  let s := { s with opSeq := s.opSeq + 1, ops := s.ops ++ [o] }
  let s := if bubble then s else s.noteDst u x.id dst
  let s := if x'.done then s.mapSig x.id (fun g => { g with armed := true }) else s
  (s.startSource o).onward o.id

end Sys2Proof.Machine
end

