-- ==== Sys2Proof/Machine/Dram.lean ====
section
/-! DEFINITION. The DRAM controllers (spec/08 R246-R254): slot tables, the service of a slot, ECC, the refresh regime; and
the answers that other modules' reads and writes get (R255, R262, R284). -/
namespace Sys2Proof.Machine

/-! ### Slot tables (R247-R249) -/

def slotOff (m v k : Nat) : Nat := memOff m (0x1000 + 0x400 * v + k)

/-- The entry in force for slot number n: a rewritten entry counts from slot swapAt on. -/
def State.slotEntry (s : State) (m v n : Nat) : Nat :=
  let k := n % 1024
  let x := s.dramOf m
  let reg := s.fld (slotOff m v k) 7 0
  if n < x.swapAt then (Tab.find x.oldSlots (v * 1024 + k)).getD reg else reg

/-- The first slot of the next frame that begins with a tally tick that is a multiple of 4. -/
def State.nextFrame (s : State) : Nat := 768 * ((s.tally / 4 + 1) * 4)

/-- A slot-table entry written: it takes effect with the others at the next such frame (R248). -/
def State.writeSlot (s : State) (m v k val : Nat) : State :=
  let x := s.dramOf m
  let now := max x.slot (768 * s.tally)
  let old := if now < x.swapAt then x.oldSlots else []
  let key := v * 1024 + k
  let cur := s.fld (slotOff m v k) 7 0
  let old := match Tab.find old key with
    | some _ => old
    | none => if cur = val then old else Tab.put key cur old
  (s.setDram m { x with oldSlots := old, swapAt := s.nextFrame }).setReg (slotOff m v k) (BitVec.ofNat 64 (val % 256))

def slotKind (b : Nat) : Nat := bitsOf b 7 6
def slotPart (b : Nat) : Nat := bitsOf b 3 0

/-- The checks of R248 on a pair of tables. -/
def slotsOk (v0 v1 : List Nat) : Bool :=
  let k0 := v0.map slotKind
  let k1 := v1.map slotKind
  let ix := (v0.zip v1).zipIdx
  let runs (l : List Nat) (n : Nat) : Bool :=
    (List.range 8).all (fun i => ((slice l (128 * i) 128).filter (fun x => x == 2)).length == n)
  v0.length == 1024 && v1.length == 1024 &&
    ix.all (fun e => (slotKind e.1.1 == 3) == (e.2 % 16 == 15) && (slotKind e.1.2 == 3) == (e.2 % 16 == 15)) &&
    runs k0 15 && runs k1 30 &&
    ix.all (fun e =>
      let a := slotKind e.1.1
      let b := slotKind e.1.2
      (a != 2 || b == 2) && (b != 2 || a == 2 || a == 1) && ((a == 0) == (b == 0)) &&
        (a != 0 || slotPart e.1.1 == slotPart e.1.2)) &&
    decide (16 ≤ (k1.filter (fun x => x == 1)).length)

/-! ### ECC (R254) -/

/-- A read of part of a line: a correctable error is corrected and counted, and the line waits for its write-back; an
uncorrectable one is delivered as stored and raises a memory fault. -/
def State.dramRead (s : State) (m line off len : Nat) (group part : Nat) : List Byte × State :=
  let x := s.dramOf m
  let bs := Memory.bytes x.mem (64 * line + off) len
  match Tab.find x.ecc line with
  | some 1 => (bs, (s.setDram m { x with backs := if x.backs.contains line then x.backs else x.backs ++ [line] }).noteDie
      (m / 2) 0x24 (m % 2) 1)
  | some _ => (bs, s.lineFault m line group part)
  | none => (bs, s)

/-- A write of part of a line: a whole line clears any error, a part corrects a correctable one and keeps an
uncorrectable one marked. Before ENABLE_WRITES of its die a stack accepts no write (R414). -/
def State.dramWrite (s : State) (m line off : Nat) (bs : List Byte) : State :=
  if !natBit s.boot.writable (m / 2 + 1) then s
  else
  let x := s.dramOf m
  let whole := off == 0 && bs.length == 64
  let fix := Tab.find x.ecc line == some 1
  let ecc := if whole || fix then Tab.erase line x.ecc else x.ecc
  (s.setDram m { x with mem := Memory.setBytes x.mem (64 * line + off) bs, ecc := ecc,
                        backs := if whole || fix then x.backs.filter (fun l => l != line) else x.backs }).noteDie (m / 2) 0x24 (m % 2)
    (if fix && !whole then 1 else 0)

/-! ### Answers to other modules (R255, R262, R284) -/

/-- A read reply to the module that asked: its flits carry the request's core, tag and generation. -/
def State.reply (s : State) (f : Flit) (bs : List Byte) (refused : Bool) (die : Option Nat) : State :=
  let r : Flit :=
    { emptyFlit with
      type := 3, cls := f.cls, part := f.part, group := f.group, gen := f.gen, srcmod := s.me, dstmod := f.srcmod,
      space := f.space, off := f.off, srcu := f.srcu, tag := f.tag, sent := s.cycle % 2 ^ 24, rfs := refused }
  s.sendFlits die (dataFlits r bs)

/-- An acknowledgement owed to a source module (R284): die and tag, with the die cycle in which it was earned. -/
def State.ack (s : State) (f : Flit) : State :=
  let a : Ack := { mod_ := f.srcmod, entry := f.srcu / 256 * 2 ^ 15 + f.tag, at_ := s.now, part := f.part,
                   group := f.group, gen := f.gen }
  { s with fab := { s.fab with acks := s.fab.acks ++ [a] } }

/-- Is an operation of a core of another module still on its way to its effect here? -/
def State.remoteOpen (s : State) (src srcu : Nat) : Bool :=
  s.remote.any (fun r => r.flit.srcmod == src && r.flit.srcu == srcu && r.flit.type == 1) ||
    s.cores.any (fun e => e.2.extU.any (fun a => match a.for_ with
      | .flit f => f.srcmod == src && f.srcu == srcu && f.type == 1
      | _ => false)) ||
    s.fab.rx.any (fun e => e.2.any (fun x => x.flit.srcmod == src && x.flit.srcu == srcu && x.flit.type == 1))

/-- May operations of a transfer whose signal has come still be on their way by another port? Those of the scheduled class
until s + MAX of the operation that carried it, when each has come or has raised a fault (R215); those of the unscheduled
class arrive in order (R296; DEDUCED, log 64). -/
def State.riderEarly (s : State) (f : Flit) : Bool :=
  f.cls == 0 && decide ((s.cycle + 2 ^ 24 - f.sent % 2 ^ 24) % 2 ^ 24 < s.tmax (mmOff f.srcmod s.me))

/-- The object of a signal that rode in on a flit (R271, case B). -/
def State.riderObj (s : State) (f : Flit) : Option (Nat × Nat) :=
  match refOf f.srk f.sref with
  | some (.store d i) => some (d, i)
  | some (.ns g k) => (s.nsObject g k).map (fun x => x.2)
  | _ => none

/-- Signals that rode in and whose operations have all taken effect are applied a die cycle later or when the last may have
come. -/
def State.riders (s : State) : State :=
  let go : List Flit := s.fab.remSigs.filter (fun f => !s.remoteOpen f.srcmod f.srcu && !s.riderEarly f)
  let ms : List SyncMsg := go.filterMap (fun f => (s.riderObj f).map (fun o =>
    { due := s.now + 1, die := o.1, index := o.2, op := .inc f.sinc, part := f.part, src := f.srcmod,
      unit := UnitForm.toId (.core f.srcmod (f.srcu / 256) (f.srcu / 16 % 16) (f.srcu % 16)), group := f.group,
      gen := f.gen }))
  { s with syncMsgs := s.syncMsgs ++ ms, fab := { s.fab with remSigs := s.fab.remSigs.filter (fun f => !go.contains f) } }

/-- SRCU of a flit that carries an aperture access of the host (R345): no core has it (log 18). -/
def hostSrcu : Nat := 1023

/-- A write that came in a flit has taken effect or was refused: its last flit earns the acknowledgement, and its
signal waits for the other operations of its transfer. -/
def State.effectFlit (s : State) (f : Flit) : State :=
  let s := if f.last && f.srcu != hostSrcu then s.ack f else s
  let s := if f.sig then { s with fab := { s.fab with remSigs := s.fab.remSigs ++ [f] } } else s
  s.riders

/-- The bytes of one line come back for a remote read; the last line sends the reply. -/
def State.remoteLine (s : State) (id pos : Nat) (bs : List Byte) (die : Nat) : State :=
  match s.remote.find? (fun r => r.id == id) with
  | none => s
  | some r =>
      let data := r.data.take pos ++ bs ++ r.data.drop (pos + bs.length)
      if r.lines ≤ 1 then
        ({ s with remote := s.remote.filter (fun x => x.id != id) } : State).reply r.flit data false (some die)
      else { s with remote := s.remote.map (fun x => if x.id == id then { x with data := data, lines := r.lines - 1 } else x) }

/-- One line of a remote write is committed; the last one earns the acknowledgement, and the signal it carries. -/
def State.remoteCommit (s : State) (id : Nat) : State :=
  match s.remote.find? (fun r => r.id == id) with
  | none => s
  | some r =>
      if r.lines ≤ 1 then ({ s with remote := s.remote.filter (fun x => x.id != id) } : State).effectFlit r.flit
      else { s with remote := s.remote.map (fun x => if x.id == id then { x with lines := r.lines - 1 } else x) }

/-! ### The service of a slot (R250) -/

/-- One access is served. -/
def State.serve (s : State) (m : Nat) (r : DramReq) : State :=
  match r.write with
  | none =>
      let x := s.dramRead m r.line r.off r.len r.group r.part
      (match r.for_ with
        | .op id pos => (match x.2.op id with
            | some o =>
                let data := o.data.take pos ++ x.1 ++ o.data.drop (pos + x.1.length)
                if o.lines ≤ 1 then
                  (x.2.setOp { o with data := data, lines := 0, stage := .ready,
                                       due := max s.now (o.s + s.tmin (drrOff o.core.die m)) }).onward id
                else x.2.setOp { o with data := data, lines := o.lines - 1 }
            | none => x.2)
        | .remote id pos => x.2.remoteLine id pos x.1 (m / 2)
        | .host => { x.2 with hostOut := x.2.hostOut ++ [.data x.1] })
  | some bs =>
      let s := s.dramWrite m r.line r.off bs
      (match r.for_ with
        | .op id _ => (match s.op id with
            | some o => if o.lines ≤ 1 then s.completeOp { o with lines := 0 } else s.setOp { o with lines := o.lines - 1 }
            | none => s)
        | .remote id _ => s.remoteCommit id
        | .host => s)

/-- The head of a queue: of the accesses that have reached the controller the one that came first. -/
def State.dramHead (s : State) (m q : Nat) : Option (DramReq × List DramReq) :=
  let l := Tab.get (fun _ => []) (s.dramOf m).queues q
  let first := l.foldl (fun (b : Option DramReq) r => match b with
    | some x => if r.ready < x.ready then some r else b
    | none => some r) none
  match first with
  | some r => if r.ready ≤ s.now then some (r, l.erase r) else none
  | none => none

/-- The head of a queue served, or an idle slot; the event instance counts which. -/
def State.serveQueue (s : State) (m q used idle : Nat) : State :=
  match s.dramHead m q with
  | some (r, t) =>
      let x := s.dramOf m
      let s := s.setDram m { x with queues := Tab.set (fun _ => []) x.queues q t }
      (s.noteDie (m / 2) 0x22 used 1).serve m r
  | none => if idle = 0 then s else s.noteDie (m / 2) 0x22 idle 1

/-- A pool slot: a corrected line is written back (R254), else the pool's head is served. -/
def State.poolSlot (s : State) (m : Nat) : State :=
  let x := s.dramOf m
  match x.backs with
  | l :: t => (s.setDram m { x with backs := t, ecc := Tab.erase l x.ecc }).noteDie (m / 2) 0x22 (32 + m % 2) 1
  | [] => s.serveQueue m 16 (32 + m % 2) 0

/-- The number of the slot that a stack serves next, and whether it has begun: slot j of a tick begins j/768 of a tick after
its edge (R246). -/
def State.dramNext (s : State) (m : Nat) : Nat := max (s.dramOf m).slot (768 * s.tally)
def State.slotBegun (s : State) (m : Nat) : Bool :=
  decide ((s.dramNext m - 768 * s.tally) * s.tickLen / 768 ≤ s.tickLen - 1 - s.left)

/-- The next slot of a stack in the tick in progress, if one is left: number n is served by its entry in the variant in
force. A stack that is not ready leaves its slots idle (R419), and so does one whose die's clocks stand (R334). -/
def State.dramSlot (s : State) (m : Nat) : State :=
  let x := s.dramOf m
  let n := s.dramNext m
  if n ≥ 768 * (s.tally + 1) || s.cad.stopped then s
  else
    let s := s.setDram m { x with slot := n + 1 }
    let e := s.slotEntry m (s.fld (memOff m 0x100) 63 63) n
    let i := m % 2
    if !s.memReady m then s
    else match slotKind e with
      | 0 => s.serveQueue m (slotPart e) (16 * i + slotPart e) (36 + i)
      | 1 => s.poolSlot m
      | 2 =>
          let x := s.dramOf m
          (s.setDram m { x with refreshes := x.refreshes + 1 }).noteDie (m / 2) 0x22 (34 + i) 1
      | _ => s

/-! ### The refresh regime (R252) -/

/-- The time in parts of a tally tick: 65 536 to a tick. -/
def State.tickTime (s : State) : Nat := s.tally * 65536 + (s.tickLen - 1 - s.left) * 65536 / max 1 s.tickLen

/-- The tally of the first frame that begins with a multiple of 4, at least one tick after a crossing at the given time. -/
def regimeTally (time : Nat) : Nat := ceilDiv (ceilDiv time 65536 + 1) 4 * 4

/-- The thresholds are held against the reported temperature: above ENTER at once, below EXIT for a whole tick. -/
def State.regimeCheck (s : State) (m : Nat) : State :=
  let off := memOff m 0x100
  let temp := s.fld off 55 48
  let x := s.dramOf m
  let t := s.tickTime
  if x.hotAt.isSome then s
  else if s.fld off 63 63 == 0 then
    if s.fld off 15 8 < temp then s.setDram m { x with hotAt := some (regimeTally t, true), below := 0 } else s
  else if s.fld off 7 0 ≤ temp then s.setDram m { x with below := 0 }
  else if x.below = 0 then s.setDram m { x with below := t + 1 }
  else if x.below + 65535 ≤ t then
    s.setDram m { x with hotAt := some (regimeTally (x.below + 65535), false), below := 0 }
  else s

/-- The stack reports its temperature. -/
def State.reportTemp (s : State) (m temp : Nat) : State :=
  ((s.regimeCheck m).setFld (memOff m 0x100) 55 48 temp).regimeCheck m

/-- A new tick: a pending switch of the regime takes effect. -/
def State.regimeTick (s : State) (m : Nat) : State :=
  let s := s.regimeCheck m
  let x := s.dramOf m
  match x.hotAt with
  | some (t, hot) =>
      if t ≤ s.tally then
        ((s.setDram m { x with hotAt := none }).setFld (memOff m 0x100) 63 63 hot.toNat).noteDie (m / 2) 0x23 (m % 2) 1
      else s
  | none => s

end Sys2Proof.Machine
end

