-- ==== Sys2Proof/Machine/Fec.lean ====
section
/-! DEFINITION. The link code (R281, R282): GF(2^10), the RS(544,514) code of IEEE 802.3 Clause 91 (field polynomial
x^10 + x^3 + 1, generator roots alpha^0 to alpha^29, first symbol of highest degree; PRESUMED, log 16) with correction of
up to 15 symbols, and the PRBS31 scrambler. -/
namespace Sys2Proof.Machine

/-- a times x in GF(2^10). -/
def gfDouble (a : Nat) : Nat := if a ≥ 512 then nxor (2 * a) 0x409 else 2 * a

def gfMulAux : Nat → Nat → Nat → Nat → Nat
  | 0, _, _, acc => acc
  | f + 1, a, b, acc => gfMulAux f (gfDouble a) (b / 2) (if b % 2 = 1 then nxor acc a else acc)

/-- The product in GF(2^10). -/
def gfMul (a b : Nat) : Nat := gfMulAux 10 a b 0

/-- alpha^n. -/
def gfAlpha : Nat → Nat
  | 0 => 1
  | n + 1 => gfDouble (gfAlpha n)

def gfPow (a : Nat) : Nat → Nat
  | 0 => 1
  | n + 1 => gfMul a (gfPow a n)

/-- The inverse, a^1022: a^(2 + 4 + … + 512). -/
def gfInv (a : Nat) : Nat :=
  ((List.range 9).foldl (fun (p : Nat × Nat) _ => let q := gfMul p.1 p.1; (q, gfMul p.2 q)) (a, 1)).2

/-- The generator polynomial's coefficients below x^30, from x^29 down. -/
def rsGen : List Nat :=
  ((List.range 30).foldl (fun (g : List Nat) j =>
    let a := gfAlpha j
    (List.zipWith nxor (g ++ [0]) (0 :: g.map (gfMul a)))) [1]).drop 1

/-- The 30 parity symbols of 514 message symbols, the first of highest degree. -/
def rsParity (msg : List Nat) : List Nat :=
  let g := rsGen
  msg.foldl (fun (p : List Nat) m =>
    let fb := nxor m (p.headD 0)
    List.zipWith (fun x c => nxor x (gfMul fb c)) (p.drop 1 ++ [0]) g) (List.replicate 30 0)

def rsEncode (msg : List Nat) : List Nat := msg ++ rsParity msg

/-- The value of a word, highest degree first, at x. -/
def polyAt (w : List Nat) (x : Nat) : Nat := w.foldl (fun a c => nxor (gfMul a x) c) 0

/-- The syndromes S_0 to S_29. -/
def rsSyndromes (w : List Nat) : List Nat := (List.range 30).map (fun j => polyAt w (gfAlpha j))

/-- Berlekamp-Massey: the error locator, lowest degree first, and its length. -/
structure Bm where
  c : List Nat
  b : List Nat
  l : Nat
  m : Nat
  d : Nat
deriving DecidableEq, Repr

def polyAdd (a b : List Nat) : List Nat :=
  (List.range (max a.length b.length)).map (fun i => nxor (a.getD i 0) (b.getD i 0))

def bmStep (s : List Nat) (st : Bm) (n : Nat) : Bm :=
  let d := (List.range (st.l + 1)).foldl (fun a i => nxor a (gfMul (st.c.getD i 0) (s.getD (n - i) 0))) 0
  if d = 0 then { st with m := st.m + 1 }
  else
    let k := gfMul d (gfInv st.d)
    let c := polyAdd st.c (List.replicate st.m 0 ++ st.b.map (gfMul k))
    if 2 * st.l ≤ n then { c := c, b := st.c, l := n + 1 - st.l, m := 1, d := d }
    else { st with c := c, m := st.m + 1 }

def rsLocator (s : List Nat) : Bm :=
  (List.range 30).foldl (bmStep s) { c := [1], b := [1], l := 0, m := 1, d := 1 }

/-- A received codeword decoded: its 514 message symbols and the number corrected; none where it cannot be. -/
def rsDecode (w : List Nat) : Option (List Nat × Nat) :=
  let s := rsSyndromes w
  if s.all (fun x => x == 0) then some (w.take 514, 0)
  else
    let bm := rsLocator s
    let inv := gfInv 2
    let roots := ((List.range 544).foldl (fun (a : List (Nat × Nat) × Nat) i =>
      (if polyAt bm.c.reverse a.2 = 0 then a.1 ++ [(i, a.2)] else a.1, gfMul a.2 inv)) (([] : List (Nat × Nat)), 1)).1
    if bm.l > 15 || roots.length != bm.l then none
    else
      let om := (List.range 30).map (fun n =>
        (List.range (n + 1)).foldl (fun a i => nxor a (gfMul (bm.c.getD i 0) (s.getD (n - i) 0))) 0)
      let der := (List.range bm.c.length).map (fun i => if i % 2 = 0 then bm.c.getD (i + 1) 0 else 0)
      let fix := roots.map (fun r =>
        (543 - r.1, gfMul (gfInv r.2) (gfMul (polyAt om.reverse r.2) (gfInv (polyAt der.reverse r.2)))))
      let out := w.zipIdx.map (fun p => match fix.find? (fun f => f.1 == p.2) with
        | some f => nxor p.1 f.2
        | none => p.1)
      if (rsSyndromes out).all (fun x => x == 0) then some (out.take 514, bm.l) else none

/-- n scrambler bits from a state, as a number with the first bit lowest, and the state after them (x^31 + x^28 + 1). -/
def prbs : Nat → Nat → Nat × Nat
  | 0, st => (0, st)
  | n + 1, st =>
      let b := (st / 2 ^ 30 + st / 2 ^ 27) % 2
      let r := prbs n ((2 * st + b) % 2 ^ 31)
      (b + 2 * r.1, r.2)

/-- The low n scrambler bits that a seed gives, in steps that keep the recursion shallow. -/
def prbsBits (seed n : Nat) : Nat :=
  ((List.range (n / 64)).foldl (fun (a : Nat × Nat) i =>
    let r := prbs 64 a.2
    (a.1 + r.1 * 2 ^ (64 * i), r.2)) (0, seed)).1

/-- A number of 10n bits as n symbols, the lowest bits first, and back. -/
def toSyms (v n : Nat) : List Nat := (List.range n).map (fun i => v / 2 ^ (10 * i) % 1024)
def ofSyms (l : List Nat) : Nat := l.foldr (fun x a => x + 1024 * a) 0

end Sys2Proof.Machine
end

