-- ==== Sys2Proof/Machine/Fabric.lean ====
section
/-! DEFINITION. The Tsuard fabric (spec/10): flits as bits (R283), bundles and neighbours (R302-R304), codewords
(R281, R282), what a slot sends (R287, R296-R298), forwarding (R288), ejection (R300), acknowledgements (R284), training
(R293, R294), commits (R291, R308) and bookings (R290). -/
namespace Sys2Proof.Machine

/-! ### Ready bits and mailbox events (R346, R418, R419) -/

/-- A function's MSI-X words: the PF, or a partition's VF (R342, R346). -/
def msixKey (vf : Option Nat) (word : Nat) : Nat := 256 * (match vf with
  | none => 0
  | some p => p + 1) + word

/-- A word of a function's MSI-X table. It resets to zero, so that no vector is masked: a module without BAR2, or in recovery mode,
signals vector 0 although no table can be written (R341, R417; DESIGN CHOICE, log 50). -/
def State.msixWord (s : State) (vf : Option Nat) (word : Nat) : Word := Tab.w s.gate.msix (msixKey vf word)

/-- Is a vector masked: bit 0 of its entry's vector control (PCIe; PRESUMED, log 50)? -/
def State.masked (s : State) (vf : Option Nat) (v : Nat) : Bool := bitAt (s.msixWord vf (2 * v + 1)) 32

/-- A vector of a function is signalled; one that is masked waits in the PBA. -/
def State.interrupt (s : State) (vf : Option Nat) (v : Nat) : State :=
  let k := msixKey vf (2 * v) / 2
  if s.masked vf v then { s with gate := { s.gate with pends := if s.gate.pends.contains k then s.gate.pends else s.gate.pends ++ [k] } }
  else { s with hostOut := s.hostOut ++ [.msix vf v] }

/-- A word of a function's MSI-X table written: a vector that waited goes out when its mask falls. -/
def State.writeMsix (s : State) (vf : Option Nat) (word : Nat) (w : Word) : State :=
  let k := msixKey vf word / 2
  let s := { s with gate := { s.gate with msix := Tab.set zeroW s.gate.msix (msixKey vf word) w } }
  if s.gate.pends.contains k && !s.masked vf (word / 2) then
    ({ s with gate := { s.gate with pends := s.gate.pends.filter (fun x => x != k) } } : State).interrupt vf (word / 2)
  else s

/-- A mailbox event: vector 0 of the PF. -/
def State.mailEvent (s : State) : State := s.interrupt none 0

/-- The number of a ready bit among the functions of FEATREQ, which follow R419: HOST, RINGS, STREAM, CADLOCK and SMB, the
management cores, the compute dies, the clusters, the stacks, the ports. -/
def featIndex (off bit : Nat) : Nat :=
  if off = 0x430018 then bit + 15
  else if 59 ≤ bit then 63 - bit
  else if 53 ≤ bit then bit - 53 + 5
  else if 49 ≤ bit then bit - 49 + 11
  else if 41 ≤ bit then bit - 41 + 63
  else bit - 17 + 71

/-- Does the function of a ready bit lack a required feature (R429, R430)? -/
def State.lacks (s : State) (off bit : Nat) : Bool := natBit s.boot.miss (featIndex off bit)

/-- A ready bit of MGC.READY0 or READY1 set or cleared: a change is signalled. A function that lacks a required feature
never sets its bit (R419). -/
def State.setReady (s : State) (off bit : Nat) (v : Bool) : State :=
  if s.fld off bit bit = v.toNat || (v && s.lacks off bit) then s else (s.setFld off bit bit v.toNat).mailEvent

/-! ### Flits as bits (R283) -/

/-- A header's fields with their widths, from bit 0. -/
def Flit.fields (f : Flit) : List (Nat × Nat) :=
  [(f.type, 4), (f.cls, 1), (f.vc, 4), (f.part, 4), (f.group, 12), (f.gen, 8), (f.srcmod, 6), (f.dstmod, 6), (f.route, 30),
   (f.hop, 4), (f.space, 3), (f.off, 54), (f.len, 8), (f.last.toNat, 1), (f.sig.toNat, 1), (f.srcu, 10), (f.tag, 15),
   (f.sent, 24), (f.srk, 2), (f.sref, 27), (f.sinc, 15), (f.cred, 16), (f.rfs.toNat, 1)]

/-- Fields packed from bit 0 upwards. -/
def packBits : List (Nat × Nat) → Nat
  | [] => 0
  | (v, w) :: t => v % 2 ^ w + 2 ^ w * packBits t

/-- The 256 bytes of a flit. -/
def Flit.bytes (f : Flit) : List Byte := bytesLE (packBits f.fields) 32 ++ padTo 0 224 f.body

/-- The flit that 256 bytes spell; its body has as many bytes as LEN says, except in an empty-bodied flit. -/
def Flit.ofBytes (bs : List Byte) : Flit :=
  let h := natLE (bs.take 32)
  let b (hi lo : Nat) : Nat := bitsOf h hi lo
  let type := b 3 0
  let n := if type = 2 || type = 4 || type = 0 then 0 else min 224 (b 143 136 + 1)
  { type := type, cls := b 4 4, vc := b 8 5, part := b 12 9, group := b 24 13, gen := b 32 25, srcmod := b 38 33,
    dstmod := b 44 39, route := b 74 45, hop := b 78 75, space := b 81 79, off := b 135 82, len := b 143 136,
    last := b 144 144 == 1, sig := b 145 145 == 1, srcu := b 155 146, tag := b 170 156, sent := b 194 171, srk := b 196 195,
    sref := b 223 197, sinc := b 238 224, cred := b 254 239, rfs := b 255 255 == 1, body := (bs.drop 32).take n }

/-- The next hop code of a flit (R295); a route that has run out is read as ended. -/
def Flit.code (f : Flit) : Nat := if f.hop > 9 then 6 else f.route / 2 ^ (3 * f.hop) % 8

/-- Does the flit carry a group index (R386, R387)? SYS and abort flits do not. -/
def Flit.grouped (f : Flit) : Bool := decide (1 ≤ f.type) && decide (f.type ≤ 5)

/-! ### Topology (R302-R304) -/

def State.topo (s : State) : Nat := s.fld 0x410000 39 32
def State.ll (s : State) : Nat := s.fld 0x410000 57 48
/-- FWD (R292). -/
def fwd : Nat := 40

/-- The ports of the bundle that a hop code names, and its default reserve port (R303). -/
def bundlePorts (topo code : Nat) : List Nat × Nat :=
  match topo, code with
  | 1, 0 => ([0, 4, 8, 12, 16, 20], 0)
  | 1, 1 => ([1, 5, 9, 13, 17, 21], 1)
  | 1, 2 => ([2, 6, 10, 14, 18, 22], 22)
  | 1, 3 => ([3, 7, 11, 15, 19, 23], 23)
  | 2, 0 => ([0, 5, 6, 12, 18], 18)
  | 2, 1 => ([1, 7, 11, 13, 19], 19)
  | 2, 2 => ([2, 8, 14, 17, 20], 2)
  | 2, 3 => ([3, 9, 15, 21, 23], 3)
  | 2, 4 => ([4, 10, 16, 22], 10)
  | 2, 5 => ([4, 10, 16, 22], 10)
  | 3, 0 => ([0, 6, 12, 18], 0)
  | 3, 1 => ([1, 7, 13, 19], 1)
  | 3, 2 => ([2, 8, 14, 20], 8)
  | 3, 3 => ([3, 9, 15, 21], 9)
  | 3, 4 => ([4, 10, 16, 22], 16)
  | 3, 5 => ([5, 11, 17, 23], 17)
  | _, _ => ([], 24)

/-- The default reserve ports of a topology. -/
def defaultReserve (topo : Nat) : List Nat := (List.range 6).map (fun c => (bundlePorts topo c).2)

/-- The reserve ports in force: those of the starter's port roles, or the default ones (R226, R303). -/
def State.reservePorts (s : State) : List Nat :=
  match s.fab.roles with
  | some w => (List.range 24).filter (natBit w)
  | none => defaultReserve s.topo

/-- The hop code whose bundle holds a logical port, and its index there. -/
def bundleOfPort (topo r : Nat) : Option (Nat × Nat) :=
  (List.range 6).findSome? (fun c => ((bundlePorts topo c).1.findIdx? (fun p => p == r)).map (fun k => (c, k)))

/-- Coordinate of a module in the dimension of a hop code, and the length of the ring there. -/
def coordOf (topo m code : Nat) : Nat × Nat :=
  match code / 2 with
  | 0 => (m % 4, 4)
  | 1 => (m / 4 % 4, 4)
  | _ => (m / 16, if topo = 2 then 2 else 4)

/-- The neighbour in the direction of a hop code. -/
def neighbour (topo m code : Nat) : Nat :=
  let c := coordOf topo m code
  let n := if code % 2 = 0 then (c.1 + 1) % c.2 else (c.1 + c.2 - 1) % c.2
  match code / 2 with
  | 0 => m / 4 * 4 + n
  | 1 => m / 16 * 16 + n * 4 + m % 4
  | _ => n * 16 + m % 16

/-- The hop code of the opposite direction; the z bundle of a 4x4x2 torus meets itself. -/
def opposite (topo code : Nat) : Nat := if topo = 2 && decide (4 ≤ code) then code else if code % 2 = 0 then code + 1 else code - 1

/-- What IDENT must find at a physical port (R304): the neighbour's number and physical port. -/
def expected (topo m p : Nat) : Option (Nat × Nat) :=
  match bundleOfPort topo p with
  | some (c, k) => ((bundlePorts topo (opposite topo c)).1[k]?).map (fun q => (neighbour topo m c, q))
  | none => none

/-- Does the hop cross a dateline: the link between coordinates 3 and 0 (R296)? -/
def crosses (topo m code : Nat) : Bool :=
  let c := coordOf topo m code
  c.2 == 4 && ((code % 2 == 0 && c.1 == 3) || (code % 2 == 1 && c.1 == 0))

/-- The VC of an unscheduled flit on its next hop (R296): the even one of its pair at its origin and after a turn, the
odd one from a dateline on. -/
def Flit.outVc (f : Flit) (topo m : Nat) : Nat :=
  let prev := f.route / 2 ^ (3 * (f.hop - 1)) % 8
  let even := f.vc / 2 * 2
  let base := if f.hop = 0 || prev / 2 != f.code / 2 then even else f.vc
  if crosses topo m f.code then even + 1 else base

/-! ### Ports (R291, R293, R305, R308) -/

def fpOff (p w : Nat) : Nat := 0x411000 + 0x10 * p + 8 * w
def State.portEn (s : State) (p : Nat) : Bool := s.fld (fpOff p 0) 63 63 == 1
def State.portState (s : State) (p : Nat) : Nat := s.fld (fpOff p 1) 63 61
def State.portUp (s : State) (p : Nat) : Bool := s.portEn p && s.portState p == 6
def State.phys (s : State) (r : Nat) : Nat := s.fld (0x411400 + 8 * r) 12 8

/-- The logical port of a physical port, and its lane map, as its receiving side uses them in slot n (R291). -/
def State.rxPort (s : State) (p n : Nat) : Option Nat :=
  if n < s.fab.oldTill then s.fab.oldPmap.findIdx? (fun x => x == p)
  else (List.range 24).find? (fun r => s.phys r == p)
def State.rxLmap (s : State) (p n : Nat) : Nat :=
  if n < s.fab.oldTill then s.fab.oldLmap.getD p 0 else s.fld (fpOff p 1) 31 0

def State.setFab (s : State) (f : Fabric) : State := { s with fab := f }
def eightN (_ : Nat) : Nat := 8

/-- FAB.SLOT: the entry of logical port r in slot n, variant v. -/
def fslotOff (v r k : Nat) : Nat := 0x420000 + 0x6000 * v + 0x400 * r + 2 * k
def State.fslot (s : State) (v r n : Nat) : Word := s.reg (fslotOff v r (n % 512))

/-- The entry that decides slot n of port r: from slot 40 AT of an armed commit on it is the shadow's (R291). -/
def State.fslotAt (s : State) (r n : Nat) : Word :=
  s.fslot (if s.fld 0x410018 63 63 = 1 && decide (40 * (s.reg 0x410010).toNat ≤ n) then 1 else 0) r n
def fsKind (w : Word) : Nat := bits w 15 14
def fsSrcp (w : Word) : Nat := bits w 13 9
def fsPart (w : Word) : Nat := bits w 3 0

/-- The partitions that a link fault on a physical port names (R306), as far as this module's registers show them: those with
a scheduled entry on its logical port, those with an entry that forwards what comes in there, and those with RATE > 0. -/
def State.linkParts (s : State) (p : Nat) : Nat :=
  let rs := (List.range 24).filter (fun r => s.phys r == p)
  let owns (q : Nat) : Bool := s.regs.any (fun e => decide (0x420000 ≤ e.1) && decide (e.1 < 0x426000) && fsPart e.2 == q &&
    ((rs.contains ((e.1 - 0x420000) / 0x400) && (fsKind e.2 == 1 || fsKind e.2 == 2)) ||
      (fsKind e.2 == 2 && rs.contains (fsSrcp e.2))))
  ((List.range 16).map (fun q => if owns q || decide (0 < s.fld (0x412C00 + 8 * q) 13 0) then 2 ^ q else 0)).foldl (· + ·) 0

/-- A link fault on an ACTIVE port (R294): FAULT is set, the port drops what it receives from now on, and the partitions of
R306 are aborted, with those that the other end's tables and the other modules' regulators add (log 66). -/
def State.linkFault (s : State) (p far : Nat) : State :=
  if s.portUp p then
    let s := s.setFld (fpOff p 1) 60 60 1
    let s := s.setFab { s.fab with dead := if s.fab.dead.contains p then s.fab.dead else s.fab.dead ++ [p] }
    { s with raised := s.raised ++
        [{ cls := 2, unit := UnitForm.toId (.module s.me), parts := nor (s.linkParts p) (far % 2 ^ 16), capture := none }] }
  else s

/-- The port goes to a training state; ACTIVE sets its ready bit, any other state clears it (R293, R418). -/
def State.toPortState (s : State) (p st : Nat) : State :=
  let s := (s.setFld (fpOff p 1) 63 61 st).setReady 0x430010 (17 + p) (st == 6)
  if st = 6 then
    let f := s.fab
    let vcs := (List.range 16).map (fun v => 16 * ((s.rxPort p (40 * s.tally)).getD 24) + v)
    s.setFab { f with
      dead := f.dead.filter (fun x => x != p)
      heal := f.heal.filter (fun x => x != p)
      laneC := (List.range 9).foldl (fun (t : Tab Nat) l => Tab.set zeroN t (9 * p + l) 0) f.laneC
      rxWord := Tab.set (fun _ => none) f.rxWord p none
      cred := vcs.foldl (fun (t : Tab Nat) k => Tab.set eightN t k 8) f.cred
      owed := vcs.foldl (fun (t : Tab Nat) k => Tab.set zeroN t k 0) f.owed }
  else s

/-- May a port train: it is enabled, the drivers of its die have left the off state, and the module holds cadence lock
(R413, R414, R419)? A solo module keeps every port OFF (R302). -/
def State.mayTrain (s : State) (p : Nat) : Bool :=
  s.portEn p && s.topo != 0 && natBit s.boot.outputs (p / 6 + 1) && s.fld 0x430010 60 60 == 1

/-- One step of training (R293): the work of the port's state is done, or has failed. -/
def State.train (s : State) (p : Nat) (ev : TrainEvent) : State :=
  if !s.mayTrain p then s
  else match s.portState p, ev with
    | 0, .signal l => if popCount l 9 = 0 then s else s.toPortState p 1
    | 1, .signal l => if 8 ≤ popCount l 9 then s.toPortState p 2 else s
    | 2, .locked l =>
        let s := s.setFab { s.fab with lanes := Tab.set zeroN s.fab.lanes p (l % 512) }
        s.toPortState p (if 8 ≤ popCount l 9 then 3 else 7)
    | 3, .aligned ok => s.toPortState p (if ok then 4 else 7)
    | 4, .ident nm np tp =>
        let s := (s.setFld (fpOff p 1) 59 54 nm).setFld (fpOff p 1) 53 49 np
        s.toPortState p (if expected s.topo s.me p == some (nm, np) && tp == s.topo then 5 else 7)
    | 5, .measured lat =>
        let s := s.setFld (fpOff p 1) 47 32 lat
        s.toPortState p (if lat + 16 ≤ 8 * s.ll then 6 else 7)
    | _, _ => s

/-- Training starts again from OFF (R305). -/
def State.retrain (s : State) (p : Nat) : State := s.toPortState p 0

/-! ### Slots and die cycles -/

/-- The die cycle that has begun when slot n of this or a near tick begins: the first at or after it (R213, R285). Ticks of the
past keep their own length. -/
def State.slotCycle (s : State) (n : Nat) : Int :=
  match s.ticks.find? (fun e => e.1 == n / 40) with
  | some e => (s.cycle : Int) - (s.now : Int) + ((e.2.1 + ceilDiv (n % 40 * e.2.2) 40 : Nat) : Int)
  | none => (s.dcy : Int) - (-(((n : Int) - 40 * (s.tally : Int)) * (s.tickLen : Int))) / 40

/-! ### Sending (R287, R296-R298) -/

/-- Is a flit that originates here at the port stage of logical port r when slot n begins (R300)? -/
def State.atStage (s : State) (r n : Nat) (t : TxFlit) : Bool :=
  let inj := if t.die == some (s.phys r / 6) then 16 else 56
  decide (((t.sent + inj : Nat) : Int) ≤ (s.now : Int) + s.slotCycle n - (s.cycle : Int))

/-- The positions in a list at which a property holds. -/
def places {α : Type} (l : List α) (f : α → Bool) : List Nat := (l.zipIdx.filter (fun e => f e.1)).map (fun e => e.2)

/-- Case 1 of R287: the position in tx of the flit that the ORIG entry of port r takes. Ports of the bundle below r
that hold such an entry and have not yet sent this slot take the older ones. -/
def State.pickOrig (s : State) (r n part : Nat) : Option Nat :=
  let inBundle (f : Flit) : Bool := (bundlePorts s.topo f.code).1.contains r
  let c := places s.tx (fun t => t.flit.cls == 0 && t.flit.part == part && inBundle t.flit && s.atStage r n t)
  let before := match bundleOfPort s.topo r with
    | some (b, _) => (bundlePorts s.topo b).1.filter (fun q => decide (q < r) &&
        fsKind (s.fslotAt q n) == 1 && fsPart (s.fslotAt q n) == part &&
        decide (max (Tab.get zeroN s.fab.next q) (40 * s.tally) ≤ n))
    | none => []
  c.drop before.length |>.head?

/-- Case 2: the position in fw of the flit bound to slot n of port r. -/
def State.pickThru (s : State) (r n : Nat) : Option Nat := (places s.fab.fw (fun w => w.out == some r && w.slot == n)).head?

/-- Where an unscheduled flit comes from: a position in fw or in tx. -/
inductive Pick where
  | fw (i : Nat)
  | tx (i : Nat)
deriving DecidableEq, Repr

/-- May a partition's unscheduled flit enter the fabric: it holds a token, and its RATE is not 0 (R298)? -/
def State.injects (s : State) (p : Nat) : Bool :=
  decide (0 < s.fld (0x412C80 + 8 * p) 15 0) && decide (0 < s.fld (0x412C00 + 8 * p) 13 0)

/-- The first flit that waits for VC v on port r: forwarded ones first, then those of this module whose partition
holds a token. -/
def State.pickVc (s : State) (r n v : Nat) : Option Pick :=
  let out (f : Flit) : Bool := (bundlePorts s.topo f.code).1.contains r && f.outVc s.topo s.me == v
  match (places s.fab.fw (fun w => w.out.isNone && decide (w.slot ≤ n) && out w.flit)).head? with
  | some i => some (.fw i)
  | none =>
      ((places s.tx (fun t => t.flit.cls == 1 && out t.flit && s.atStage r n t &&
        (decide (6 ≤ t.flit.type) || s.injects t.flit.part))).head?).map (fun i => .tx i)

/-- Case 3: a SYS flit, then the VCs in rotation, each against a credit. -/
def State.pickFree (s : State) (r n : Nat) : Option (Nat × Pick) :=
  let try_ (v : Nat) : Option (Nat × Pick) :=
    if Tab.get eightN s.fab.cred (16 * r + v) = 0 then none else (s.pickVc r n v).map (fun p => (v, p))
  let t := Tab.get zeroN s.fab.turn r
  match ((List.range 8).map (fun v => v + 8)).findSome? try_ with
  | some x => some x
  | none => ((List.range 8).map (fun v => (t + v) % 8)).findSome? try_

/-- The flit at a pick leaves where it waited; a forwarded one frees its buffer entry, one of this module takes a
token. -/
def State.takePick (s : State) (p : Pick) : Option Flit × State :=
  match p with
  | .fw i => match s.fab.fw[i]? with
      | some w =>
          let k := 16 * w.inp + w.flit.vc
          let owed := if w.flit.cls = 1 then Tab.set zeroN s.fab.owed k (Tab.get zeroN s.fab.owed k + 1) else s.fab.owed
          (some w.flit, s.setFab { s.fab with fw := s.fab.fw.eraseIdx i, owed := owed })
      | none => (none, s)
  | .tx i => match s.tx[i]? with
      | some t =>
          let s1 := { s with tx := s.tx.eraseIdx i }
          let off := 0x412C80 + 8 * t.flit.part
          (some t.flit, if t.flit.cls = 1 && decide (t.flit.type < 6) then s1.setFld off 15 0 (s.fld off 15 0 - 1) else s1)
      | none => (none, s)

/-- What slot n of port r sends (R287), without the credits it carries: the flit, and the kind that event 0x29
counts. With the clocks of the compute dies stopped only the SYS path runs (R455). -/
def State.slotFlit (s : State) (r n : Nat) : Flit × Nat × State :=
  let e := s.fslotAt r n
  let fixed : Option (Pick × Nat) := match if s.cad.stopped then 0 else fsKind e with
    | 1 => (s.pickOrig r n (fsPart e)).map (fun i => (.tx i, 0))
    | 2 => (s.pickThru r n).map (fun i => (.fw i, 1))
    | _ => none
  match fixed with
  | some (p, k) =>
      let x := s.takePick p
      (match x.1 with
        | some f => ({ f with hop := f.hop + 1 }, k, x.2)
        | none => (emptyFlit, 4, s))
  | none => match (s.pickFree r n).filter (fun x => !s.cad.stopped || decide (8 ≤ x.1)) with
      | some (v, p) =>
          let x := s.takePick p
          (match x.1 with
            | some f =>
                let k := 16 * r + v
                let s1 := x.2.setFab { x.2.fab with
                  cred := Tab.set eightN x.2.fab.cred k (Tab.get eightN x.2.fab.cred k - 1)
                  turn := if v < 8 then Tab.set zeroN x.2.fab.turn r ((v + 1) % 8) else x.2.fab.turn }
                ({ f with hop := f.hop + 1, vc := v }, if 8 ≤ v then 3 else 2, s1)
            | none => (emptyFlit, 4, s))
      | none => (emptyFlit, 4, s)

/-- The CRED bits of the next flit of port r, and the credits still owed. -/
def State.credBits (s : State) (r : Nat) : Nat × State :=
  (List.range 16).foldl (fun (a : Nat × State) v =>
    let k := 16 * r + v
    let n := Tab.get zeroN a.2.fab.owed k
    if n = 0 then a else (a.1 + 2 ^ v, a.2.setFab { a.2.fab with owed := Tab.set zeroN a.2.fab.owed k (n - 1) })) (0, s)

/-- The bits of lane l's share in a codeword's 20 flits, scrambled (R281). -/
def laneBits (p l c : Nat) (fs : List Flit) : Nat :=
  let share := natLE ((fs.map (fun f => slice f.bytes (32 * l) 32)).flatten)
  nxor share (prbsBits (Config.scramblerSeed ((c * 24 + p) * 9 + l)).toNat 5120)

/-- A lane word (R281): KIND 0 SEQ or 1 TRAIN, and its data. -/
def laneWord (kind data : Nat) : Nat := kind * 2 ^ 18 + data % 2 ^ 18

/-- The lane word of codeword c of a port: SEQ where it is ACTIVE; in training TRAIN, with module number, physical port and
TOPO in IDENT, and c else (R293; the places are a DESIGN CHOICE, log 63). -/
def State.laneWordOf (s : State) (p c : Nat) : Nat :=
  if s.portState p = 6 then laneWord 0 c
  else if s.portState p = 4 then laneWord 1 (s.me + 2 ^ 6 * p + 2 ^ 11 * s.topo)
  else laneWord 1 c

/-- The nine codewords of a port: eight logical lanes on their physical lanes, and the spare with idle shares. -/
def portWords (p c lmap word : Nat) (fs : List Flit) : List SentWord :=
  (List.range 9).map (fun lane =>
    let l := (List.range 8).find? (fun l => lmap / 2 ^ (4 * l) % 16 == lane)
    let b := match l with
      | some l => laneBits p l c fs
      | none => laneBits p 8 c (List.replicate 20 emptyFlit)
    { phys := p, lane := lane, c := c,
      syms := (rsEncode (toSyms (word + 2 ^ 20 * b) 514)).map (fun x => BitVec.ofNat 10 x) })

/-- Slot n of logical port r passes with the given flit; the twentieth completes a codeword. -/
def State.passSlot (s : State) (r n : Nat) (f : Flit) (sent : List SentFlit) : State :=
  let p := s.phys r
  let old := if Tab.get zeroN s.fab.next r / 20 = n / 20 then Tab.get (fun _ => []) s.fab.word r else []
  let word := padTo emptyFlit (n % 20) old ++ [f]
  let done := n % 20 == 19
  let wire := if done then portWords p (n / 20) (s.fld (fpOff p 1) 31 0) (s.laneWordOf p (n / 20)) word else []
  s.setFab { s.fab with
    next := Tab.set zeroN s.fab.next r (n + 1)
    word := Tab.set (fun _ => []) s.fab.word r (if done then [] else word)
    sent := s.fab.sent ++ sent
    wire := s.fab.wire ++ wire }

/-- The unscheduled flits of this module that wait in slot n for a token of their partition at the port stage of r's bundle:
each is counted once in a slot, at the first of the bundle's ports that is ACTIVE (R298). -/
def State.countWaits (s : State) (r n : Nat) : State :=
  let first := match bundleOfPort s.topo r with
    | some (b, _) => (bundlePorts s.topo b).1.find? (fun q => s.portUp (s.phys q)) == some r
    | none => false
  if !first then s
  else s.tx.foldl (fun (a : State) t =>
    if t.flit.cls = 1 && decide (t.flit.type < 6) && (bundlePorts s.topo t.flit.code).1.contains r && s.atStage r n t &&
        !s.injects t.flit.part then a.noteDie (s.phys r / 6) 0x28 t.flit.part 1 else a) s

/-- The next slot of logical port r in the tick in progress, if one is left: an ACTIVE port sends a flit in it (R287), one in
training an idle share (R293). -/
def State.slotSend (s : State) (r : Nat) : State :=
  let p := s.phys r
  let n := max (Tab.get zeroN s.fab.next r) (40 * s.tally)
  if decide (40 * (s.tally + 1) ≤ n) then s
  else if s.portUp p then
    let x := (s.countWaits r n).slotFlit r n
    let c := x.2.2.credBits r
    let f := { x.1 with cred := c.1 }
    (c.2.noteDie (p / 6) 0x29 (6 * x.2.1 + p % 6) 1).passSlot r n f (if x.2.1 = 4 then [] else [⟨r, p, n, f⟩])
  else if s.mayTrain p && decide (s.portState p ≤ 5) then s.passSlot r n emptyFlit []
  else s

/-! ### Receiving (R281, R282, R294) -/

/-- Flits of a whole codeword arrive at their port: credits are taken from every flit, idle ones go no further. -/
def State.presentWord (s : State) (p c : Nat) (lanes : List (Nat × List Byte)) : State :=
  let n := 20 * c + s.ll
  match s.rxPort p n with
  | none => s
  | some r =>
      let share (l : Nat) : List Byte := ((lanes.find? (fun x => x.1 == l)).map (fun x => x.2)).getD []
      let fs := (List.range 20).map (fun i =>
        Flit.ofBytes (((List.range 8).map (fun l => padTo 0 32 (slice (share l) (32 * i) 32))).flatten))
      fs.zipIdx.foldl (fun (s : State) x =>
        let f := x.1
        let cred := (List.range 16).foldl (fun (t : Tab Nat) v =>
          if natBit f.cred v then Tab.set eightN t (16 * r + v) (min 8 (Tab.get eightN t (16 * r + v) + 1)) else t) s.fab.cred
        let rx := if f.type = 0 || decide (8 ≤ f.type) then s.fab.rx
          else Tab.set (fun _ => []) s.fab.rx r (Tab.get (fun _ => []) s.fab.rx r ++ [⟨n + x.2, f⟩])
        s.setFab { s.fab with cred := cred, rx := rx }) s

/-- A codeword of a port in training: in IDENT its TRAIN lane word gives the neighbour's module and port (R293, log 63). -/
def State.receiveTrain (s : State) (p : Nat) (syms : List Nat) : State :=
  match rsDecode (padTo 0 544 syms) with
  | some (m, _) =>
      let w := ofSyms m % 2 ^ 20
      if s.mayTrain p && s.portState p == 4 && w / 2 ^ 18 == 1 then
        (s.setFld (fpOff p 1) 59 54 (w % 2 ^ 6)).setFld (fpOff p 1) 53 49 (w / 2 ^ 6 % 2 ^ 5)
      else s
  | none => s

/-- Does port p drop what it receives in slot n: since a fault, until it is retrained or the commit that remaps it takes
effect on its receiving side (R291, R294)? -/
def State.dropsAt (s : State) (p n : Nat) : Bool :=
  s.fab.dead.contains p || (s.fab.heal.contains p && decide (n < s.fab.oldTill))

/-- A codeword of physical lane `lane` of port p (R281, R282): the next one of the lane that is presented in this tick
or later. An uncorrectable one, or a wrong SEQ word, on a lane in use is a link fault (R294), unless the port is out of use
already; a lane that did not lock in training receives nothing, which on a lane in use is a loss of signal. -/
def State.receive (s : State) (p lane : Nat) (syms : List Nat) : State :=
  if !s.portUp p then s.receiveTrain p syms
  else
    let key := 9 * p + lane
    let c := max (Tab.get zeroN s.fab.laneC key) (ceilDiv (40 * s.tally - s.ll) 20)
    let n := 20 * c + s.ll
    let s := s.setFab { s.fab with laneC := Tab.set zeroN s.fab.laneC key (c + 1) }
    let lmap := s.rxLmap p n
    let logical := (List.range 8).find? (fun l => lmap / 2 ^ (4 * l) % 16 == lane)
    let dec := rsDecode (padTo 0 544 syms)
    let s := match dec with
      | some (_, k) => s.noteDie (p / 6) 0x25 (p % 6) k
      | none => s.noteDie (p / 6) 0x26 (p % 6) 1
    match logical with
    | none => s
    | some l =>
        let info := match dec with
          | some (m, _) => some (ofSyms m)
          | none => none
        let locked := Tab.get zeroN s.fab.lanes p
        let good := (locked == 0 || natBit locked lane) && (match info with
          | some v => v % 2 ^ 20 == laneWord 0 c
          | none => false)
        let s := if good || s.dropsAt p n then s else s.linkFault p 0
        let nb := s.fld (fpOff p 1) 53 49
        let w0 : RxWord := match Tab.get (fun _ => none) s.fab.rxWord p with
          | some w => if w.c = c then w else { c := c, lanes := [], lost := false }
          | none => { c := c, lanes := [], lost := false }
        let bs := match info with
          | some v => bytesLE (nxor (v / 2 ^ 20) (prbsBits (Config.scramblerSeed ((c * 24 + nb) * 9 + l)).toNat 5120)) 640
          | none => []
        let w : RxWord := { w0 with lanes := w0.lanes.filter (fun x => x.1 != l) ++ [(l, bs)], lost := w0.lost || info.isNone }
        if w.lanes.length < 8 then s.setFab { s.fab with rxWord := Tab.set (fun _ => none) s.fab.rxWord p (some w) }
        else
          let s := s.setFab { s.fab with rxWord := Tab.set (fun _ => none) s.fab.rxWord p none }
          if w.lost || s.dropsAt p n then s else s.presentWord p c w.lanes

/-! ### Age (R387) -/

/-- The age of a flit in die cycles. -/
def State.flitAge (s : State) (f : Flit) : Nat := (s.cycle + 2 ^ 24 - f.sent % 2 ^ 24) % 2 ^ 24

/-- Has the unscheduled flit reached its age limit? -/
def State.tooOld (s : State) (f : Flit) : Bool := f.cls == 1 && f.grouped && decide (2 ^ 23 ≤ s.flitAge f)

/-- The input buffer entry of a flit that has left port q is free again (R297). -/
def State.owe (s : State) (q : Nat) (f : Flit) : State :=
  if f.cls = 1 then
    let k := 16 * q + f.vc
    s.setFab { s.fab with owed := Tab.set zeroN s.fab.owed k (Tab.get zeroN s.fab.owed k + 1) }
  else s

/-- Every flit on the module past its age limit goes into the gutter. -/
def State.ageDrop (s : State) : State :=
  let note (s : State) (f : Flit) : State := s.gutter 4 f.group f.gen f.srcmod
  let old := s.tooOld
  let s1 := s.tx.foldl (fun a t => if old t.flit then note a t.flit else a) s
  let s1 := s.fab.fw.foldl (fun (a : State) w => if old w.flit then (note a w.flit).owe w.inp w.flit else a) s1
  let s1 := s.fab.rx.foldl (fun (a : State) e =>
    e.2.foldl (fun (a : State) x => if old x.flit then (note a x.flit).owe e.1 x.flit else a) a) s1
  let s1 := { s1 with tx := s1.tx.filter (fun t => !old t.flit) }
  s1.setFab { s1.fab with
    fw := s1.fab.fw.filter (fun w => !old w.flit)
    rx := s1.fab.rx.foldl (fun (t : Tab (List RxFlit)) e =>
      Tab.set (fun _ => []) t e.1 (e.2.filter (fun x => !old x.flit))) s1.fab.rx }

/-! ### Forwarding (R288) -/

/-- The oldest of port q's flits whose next hop is (eject: true) or is not EJECT: neither kind waits for the other. With the
clocks of the compute dies stopped only SYS and abort flits pass (R334, R455). -/
def State.rxHead (s : State) (q : Nat) (eject : Bool) : Option RxFlit :=
  (Tab.get (fun _ => []) s.fab.rx q).find? (fun x => (x.flit.code == 6) == eject && (!s.cad.stopped || decide (6 ≤ x.flit.type)))

/-- A flit leaves port q's input. -/
def State.dropRx (s : State) (q : Nat) (x : RxFlit) : State :=
  s.setFab { s.fab with rx := Tab.set (fun _ => []) s.fab.rx q ((Tab.get (fun _ => []) s.fab.rx q).erase x) }

/-- A link fault against the group and generation that a flit names (R215, R288): a generation that is past has no bake. -/
def State.groupLinkFault (s : State) (f : Flit) : State :=
  if s.stale f.group f.gen then s
  else { s with raised := s.raised ++ [{ cls := 2, unit := UnitForm.toId (.group f.group), parts := 2 ^ f.part, capture := none }] }

/-- The oldest flit at logical port q whose route goes on is bound to the slot that forwards it, or waits as an unscheduled
one. A scheduled one that finds no slot, or finds its slot past, is dropped (R288). -/
def State.forward (s : State) (q : Nat) : State :=
  match s.rxHead q false with
  | none => s
  | some x =>
      let s := s.dropRx q x
      let f := x.flit
      let m := x.slot + fwd
      if s.tooOld f then (s.gutter 4 f.group f.gen f.srcmod).owe q f
      else if f.cls = 1 then s.setFab { s.fab with fw := s.fab.fw ++ [⟨q, none, m, f⟩] }
      else
        let fits (r : Nat) : Bool :=
          let e := s.fslotAt r m
          fsKind e == 2 && fsSrcp e == q && fsPart e == f.part && decide (max (Tab.get zeroN s.fab.next r) (40 * s.tally) ≤ m)
        match (bundlePorts s.topo f.code).1.find? fits with
        | some r => s.setFab { s.fab with fw := s.fab.fw ++ [⟨q, some r, m, f⟩] }
        | none =>
            let p := s.phys q
            (s.noteDie (p / 6) 0x27 (p % 6) 1).groupLinkFault f

/-! ### Ejection (R259-R262, R300, R386) -/

/-- The die on which a flit's target lies: that of its stack, core or object; else the issuing die. -/
def Flit.targetDie (f : Flit) : Nat :=
  match f.type, f.space with
  | 3, _ => f.srcu / 256
  | 5, _ => natLE (f.body.take 4) / 2 ^ 15 % 4
  | _, 0 => bitsOf f.off 38 36 / 2
  | _, 1 => bitsOf f.off 53 52
  | _, 2 => bitsOf f.off 53 52
  | _, _ => 0

/-- The die cycle in which a flit presented in slot m at logical port q takes effect. -/
def State.ejectAt (s : State) (q : Nat) (x : RxFlit) : Int :=
  s.slotCycle x.slot + (if s.phys q / 6 = x.flit.targetDie then 20 else 60)

/-- A write or read that waits on DRAM for another module. -/
def State.remoteDram (s : State) (f : Flit) (m b len : Nat) (write : Option (List Byte)) : State :=
  let ls := linesOf b len
  let id := s.remSeq
  let r : RemoteAcc := { id := id, flit := f, data := List.replicate len 0, lines := ls.length }
  let rq (l : Nat × Nat × Nat × Nat) : DramReq :=
    { ready := s.now, line := l.1, off := l.2.1, len := l.2.2.1, write := write.map (fun bs => slice bs l.2.2.2 l.2.2.1),
      for_ := .remote id l.2.2.2, group := f.group, gen := f.gen, part := f.part }
  ({ s with remSeq := id + 1, remote := s.remote ++ [r] } : State).enqueueDram m (if f.cls = 1 then 16 else f.part) f.srcmod
    (ls.map rq)

/-- The issuing core of a flit, as a UnitID. -/
def Flit.unit (f : Flit) : UnitId := UnitForm.toId (.core f.srcmod (f.srcu / 256) (f.srcu / 16 % 16) (f.srcu % 16))

/-- The address on this module that a flit names. -/
def State.flitPlace (s : State) (f : Flit) : Place := s.placeAt (BitVec.ofNat 64 (s.me * 2 ^ 57 + f.space * 2 ^ 54 + f.off))

/-- The bytes that the window check of a write's flit covers, those of its whole operation (R261): the first of two flits is
checked with one byte of the second, since windows end at multiples of 64 B and the operation in its 256 B block; the second
with the 224 B of the first, whose coming has been noted. -/
def State.checkSpan (s : State) (f : Flit) : Nat × Nat × Bool :=
  if !f.last then (f.off, f.body.length + 1, false)
  else if s.fab.firsts.contains (f.srcmod, f.srcu, f.tag, f.off) then (f.off - 224, f.body.length + 224, true)
  else (f.off, f.body.length, false)

/-- A flit of a write notes that its other flit is to come, or that it has come. -/
def State.noteFirst (s : State) (f : Flit) : State :=
  s.setFab { s.fab with firsts := if f.last then s.fab.firsts.filter (fun x => x != (f.srcmod, f.srcu, f.tag, f.off))
    else s.fab.firsts ++ [(f.srcmod, f.srcu, f.tag, f.off + 224)] }

/-- A write reaches its target: window check, then DRAM, EXT-S or EXT-U (R143, R250, R259, R262), or a control register, which
firmware alone reaches (R234). A refused operation of two flits is counted once. -/
def State.ejectWrite (s : State) (f : Flit) : State :=
  let len := f.body.length
  let sp := s.checkSpan f
  let s := s.noteFirst f
  if f.srcu = hostSrcu && decide (3 ≤ f.space) then s.setFab { s.fab with ctlIn := s.fab.ctlIn ++ [f] }
  else if f.srcu != hostSrcu && !s.admits f.space f.part f.srcmod sp.1 sp.2.1 true then
    (if sp.2.2 then s else s.refuse f.space true f.part f.off f.unit).effectFlit f
  else match s.flitPlace f with
    | .dram m b _ =>
        if s.memReady m then s.remoteDram f m b len (some f.body) else (s.memFault f.group f.part).effectFlit f
    | .spad v b _ => (match s.key v with
        | some key =>
            if f.cls = 1 then
              let c := s.coreAt key
              s.setCoreAt key { c with extU := c.extU ++ [{ addr := b, len := len, write := some f.body, for_ := .flit f }] }
            else (s.atCore key (fun c => c.writeTo 13 b f.body)).effectFlit f
        | none => s.effectFlit f)
    | _ => s.effectFlit f

/-- A read request reaches its target; a refused one answers zeros with RFS (R262). -/
def State.ejectRead (s : State) (f : Flit) : State :=
  let len := f.len + 1
  let die := some f.targetDie
  if f.srcu = hostSrcu && decide (3 ≤ f.space) then s.setFab { s.fab with ctlIn := s.fab.ctlIn ++ [f] }
  else if f.srcu != hostSrcu && !s.admits f.space f.part f.srcmod f.off len false then
    (s.refuse f.space false f.part f.off f.unit).reply f (List.replicate len 0) true die
  else if f.space = 2 then
    let v := (s.obj (bitsOf f.off 53 52) (bitsOf f.off 16 2)).seen s.now
    s.reply f (bytesLE v 4) false die
  else match s.flitPlace f with
    | .dram m b _ =>
        if s.memReady m then s.remoteDram f m b len none
        else (s.memFault f.group f.part).reply f (List.replicate len 0) false die
    | .spad v b _ => (match s.key v with
        | some key =>
            let c := s.coreAt key
            if f.cls = 1 then
              s.setCoreAt key { c with extU := c.extU ++ [{ addr := b, len := len, write := none, for_ := .flit f }] }
            else
              let bs := (List.range len).map (fun i => if b + i < spadEnd then c.byteOld (b + i) else 0)
              let units := ((List.range len).map (fun i => (b + i) / 16)).eraseDups
              (s.atCore key (fun c => units.foldl (fun (c : Core) n => c.eccRead n) c)).reply f bs false die
        | none => s.reply f (List.replicate len 0) false die)
    | _ => s.reply f (List.replicate len 0) false die

/-- A read reply reaches the operation that holds its tag (R255), or the WAIT of its core (R269). -/
def State.ejectReply (s : State) (f : Flit) : State :=
  let u : CoreId := ⟨f.srcu / 256, f.srcu / 16 % 16, f.srcu % 16⟩
  if f.srcu = hostSrcu then { s with hostOut := s.hostOut ++ [.data f.body] }
  else if f.space = 2 then
    match s.key u with
    | none => s
    | some key =>
        let c := s.coreAt key
        (match c.stall with
          | some st => (match st.sync with
              | some (.remote m d i tg ad due none) =>
                  s.setCoreAt key { c with stall := some { st with
                    sync := some (.remote m d i tg ad due (some (natLE (f.body.take 4)))) } }
              | _ => s)
          | none => s)
  else match s.ops.find? (fun o => o.core == u && o.tag == some f.tag && o.stage == .remoteRead) with
    | none => s
    | some o =>
        let start := match o.src with
          | .glob a => addrOff a
          | .queue _ => 0
        let pos := f.off - start
        let data := o.data.take pos ++ f.body ++ o.data.drop (pos + f.body.length)
        let o1 := { o with data := data, valid := o.valid && !f.rfs, lines := o.lines - f.body.length }
        if f.last then (s.setOp { o1 with lines := 0, stage := .ready, due := s.now }).onward o.id else s.setOp o1

/-- A direct signal reaches its store (R268, log 18). -/
def State.ejectSignal (s : State) (f : Flit) : State :=
  if f.space != 2 then s.refuse 2 true f.part f.off f.unit
  else
    let op : SyncOp := if f.srk = 3 then .reset else .inc (f.sref * 2 ^ 15 + f.sinc)
    let m : SyncMsg := { due := s.now, die := bitsOf f.off 53 52, index := bitsOf f.off 16 2, op := op, part := f.part,
                         src := f.srcmod, unit := f.unit, group := f.group, gen := f.gen }
    { s with syncMsgs := s.syncMsgs ++ [m] }

/-- Acknowledgements complete the operations that hold their tags (R255, R284). -/
def State.ejectAck (s : State) (f : Flit) : State :=
  (List.range (f.body.length / 4)).foldl (fun (s : State) i =>
    let e := natLE (slice f.body (4 * i) 4)
    match s.ops.find? (fun o => o.core.die == e / 2 ^ 15 % 4 && o.tag == some (e % 2 ^ 15) && o.stage == .remoteWrite) with
    | some o => s.completeOp o
    | none => s) s

/-- The acknowledgement of a SYS message: kind 6 and the message's number (R299, log 18). -/
def ackBody (tag : Nat) : List Byte := bytesLE 6 1 ++ bytesLE tag 2

/-- A SYS or abort flit reaches firmware, which acknowledges every message and takes note of acknowledgements
(R299) and of the modules that have been unlocked (R445). A heartbeat carries nothing and is answered by none (log 18). -/
def State.ejectSys (s : State) (f : Flit) : State :=
  let s := if f.type = 7 && f.body.take 1 == bytesLE 8 1 then
      { s with audit := { s.audit with peers := nor s.audit.peers (2 ^ f.srcmod) } } else s
  if f.type = 7 && f.body.take 1 == bytesLE 6 1 then
    s.setFab { s.fab with sysOut := s.fab.sysOut.filter (fun m => !(m.2.dstmod == f.srcmod && m.2.tag == natLE ((f.body.drop 1).take 2))) }
  else
    let s1 := s.setFab { s.fab with sysIn := s.fab.sysIn ++ [f] }
    if f.body.isEmpty then s1
    else s1.sendFlits none [{ emptyFlit with type := 7, srcmod := s.me, dstmod := f.srcmod, sent := s.cycle % 2 ^ 24, len := 2,
                                             body := ackBody f.tag }]

/-- Firmware sends a SYS or abort message and keeps it until it is acknowledged (R299). -/
def State.sendSys (s : State) (f : Flit) : State :=
  let f := { f with tag := s.fab.sysSeq % 2 ^ 15 }
  (s.setFab { s.fab with sysSeq := s.fab.sysSeq + 1, sysOut := s.fab.sysOut ++ [(s.tally, f)] }).sendFlits none [f]

/-- Firmware sends again what has gone unacknowledged for a Ridge frame (R299; DESIGN CHOICE of the time, log 18). -/
def State.resendSys (s : State) : State :=
  let late := s.fab.sysOut.filter (fun m => decide (m.1 + 256 ≤ s.tally))
  let s1 := s.setFab { s.fab with sysOut := s.fab.sysOut.map (fun m => if m.1 + 256 ≤ s.tally then (s.tally, m.2) else m) }
  late.foldl (fun (s : State) m => s.sendFlits none [{ m.2 with sent := s.cycle % 2 ^ 24 }]) s1

/-- A flit takes effect at its target: generation (R386), age (R387), lateness (R215), then its kind. -/
def State.ejectFlit (s : State) (f : Flit) (at_ : Int) : State :=
  let elapsed := (at_ - (f.sent : Int)) % (2 ^ 24 : Int)
  if f.grouped && f.srcu != hostSrcu && s.stale f.group f.gen then s.gutter 0 f.group f.gen f.srcmod
  else if s.tooOld f then s.gutter 4 f.group f.gen f.srcmod
  else if f.cls = 0 && decide ((s.tmax (mmOff f.srcmod s.me) : Int) < elapsed) then s.groupLinkFault f
  else match f.type with
    | 1 => s.ejectWrite f
    | 2 => s.ejectRead f
    | 3 => s.ejectReply f
    | 4 => s.ejectSignal f
    | 5 => s.ejectAck f
    | _ => s.ejectSys f

/-- Is a flit of port q due to take effect? -/
def State.ejectDue (s : State) (q : Nat) : Bool :=
  match s.rxHead q true with
  | some x => decide (s.ejectAt q x ≤ (s.cycle : Int))
  | none => false

/-- The oldest flit at logical port q is ejected. -/
def State.eject (s : State) (q : Nat) : State :=
  match s.rxHead q true with
  | some x => if s.ejectDue q then (((s.dropRx q x).owe q x.flit).ejectFlit x.flit (s.ejectAt q x)) else s
  | none => s

/-! ### Acknowledgements and tokens (R284, R298) -/

/-- The acknowledgement flit to module j, once 56 entries wait or 32 die cycles have passed since the first. -/
def State.sendAcks (s : State) (j : Nat) : State :=
  let mine := s.fab.acks.filter (fun a => a.mod_ == j)
  match mine with
  | [] => s
  | a :: _ =>
      if mine.length < 56 && s.now < a.at_ + 32 then s
      else
        let same (b : Ack) : Bool := b.mod_ == j && b.part == a.part && b.group == a.group && b.gen == a.gen
        let es := (s.fab.acks.filter same).take 56
        let s := s.setFab { s.fab with acks := s.fab.acks.filter (fun b => !es.contains b) }
        let f : Flit := { emptyFlit with
          type := 5, part := a.part, group := a.group, gen := a.gen, srcmod := s.me, dstmod := j, len := 4 * es.length - 1,
          sent := s.cycle % 2 ^ 24, body := (es.map (fun e => bytesLE e.entry 4)).flatten }
        s.sendFlits (some (a.entry / 2 ^ 15)) [f]

/-- The next frame of slots that begins in the tick in progress or later, and whether it has begun (R285). -/
def State.nextFslotFrame (s : State) : Nat := max s.fab.frame (ceilDiv (40 * s.tally) 512)
def State.frameBegun (s : State) : Bool :=
  decide (512 * s.nextFslotFrame * s.tickLen ≤ (40 * s.tally) * s.tickLen + 40 * (s.tickLen - 1 - s.left))

/-- A frame begins: every partition's bucket gains RATE, up to DEPTH. -/
def State.refill (s : State) : State :=
  (List.range 16).foldl (fun (s : State) p =>
    let w := s.reg (0x412C00 + 8 * p)
    let off := 0x412C80 + 8 * p
    s.setFld off 15 0 (min (s.fld off 15 0 + bits w 13 0) (bits w 47 32)))
    (s.setFab { s.fab with frame := s.nextFslotFrame + 1 })

/-! ### Commits and bookings (R290, R291, R308) -/

/-- A commit is armed: refused if AT has passed. -/
def State.armFabric (s : State) : State :=
  if (s.reg 0x410010).toNat ≤ s.tally then (s.setFld 0x410018 62 62 1).setFld 0x410018 63 63 0
  else s.setFld 0x410018 63 63 1

/-- The shadow contents of one register become its active contents. -/
def copyReg (src dst : Nat) (s : State) : State := s.setReg dst (s.reg src)

/-- The commit itself, at its tally: slot tables, port maps, alternates, SALT and lane maps together; receivers keep
the old maps until slot 40 AT + LL. A remap is a repair, which restarts the counts of R391. -/
def State.commitFabric (s : State) : State :=
  let at_ := (s.reg 0x410010).toNat
  if s.fld 0x410018 63 63 = 0 || decide (s.tally < at_) then s
  else
    let oldP := (List.range 24).map s.phys
    let oldL := (List.range 24).map (fun p => s.fld (fpOff p 1) 31 0)
    let s := (List.range 24).foldl (fun (s : State) r =>
      (List.range 512).foldl (fun (s : State) k => copyReg (fslotOff 1 r k) (fslotOff 0 r k) s) s) s
    let s := (List.range 24).foldl (fun (s : State) r =>
      let s := s.setFld (0x411400 + 8 * r) 12 8 (s.fld (0x411400 + 8 * r) 4 0)
      s.setFld (fpOff r 1) 31 0 (s.fld (fpOff r 0) 31 0)) s
    let s := (List.range 64).foldl (fun (s : State) j =>
      let b := 0x412000 + 0x20 * j
      (copyReg (b + 8) (b + 0x18) (copyReg b (b + 0x10) s)).setFld (0x412800 + 8 * j) 9 8 (s.fld (0x412800 + 8 * j) 1 0)) s
    let moved (p : Nat) : Bool :=
      oldL.getD p 0 != s.fld (fpOff p 1) 31 0 ||
        (oldP.findIdx? (fun x => x == p)) != ((List.range 24).find? (fun r => s.phys r == p))
    let s := { s with rcnt := if (List.range 24).any moved then [] else s.rcnt }
    (s.setFab { s.fab with
      dead := s.fab.dead.filter (fun p => !moved p)
      heal := s.fab.dead.filter moved
      oldTill := 40 * at_ + s.ll
      oldPmap := oldP
      oldLmap := oldL }).setFld 0x410018 63 63 0

/-- The shadow slot tables with bookings merged into them. -/
def State.mergeInto (s : State) (l : List Booking) : State :=
  l.foldl (fun (s : State) b =>
    s.setReg (fslotOff 1 b.port b.slot) (BitVec.ofNat 64 (b.kind % 4 * 2 ^ 14 + b.srcp % 32 * 2 ^ 9 + b.part % 16))) s

/-- Firmware merges the bookings of a binary, unless R290 refuses them; a refused binary leaves the tables as they
are and its load is reported as failed. -/
def State.mergeBookings (s : State) (l : List Booking) : State :=
  let sched (k : Nat) : Bool := k == 1 || k == 2
  let bad := l.any (fun b =>
    let w := s.reg (fslotOff 1 b.port b.slot)
    decide (24 ≤ b.port) || decide (512 ≤ b.slot) || (sched (fsKind w) && fsPart w != b.part) ||
      (sched b.kind && s.reservePorts.contains b.port) ||
      l.any (fun c => c.port == b.port && c.slot == b.slot && sched b.kind && sched c.kind && c.part != b.part))
  let t := s.mergeInto l
  let ports := ((t.regs.filter (fun e => decide (0x426000 ≤ e.1) && decide (e.1 < 0x42C000))).map
    (fun e => (e.1 - 0x426000) / 0x400)).eraseDups
  let noSys := ports.any (fun r => (List.range 8).any (fun i =>
    (List.range 64).all (fun j => fsKind (t.fslot 1 r (64 * i + j)) != 3)))
  if bad || noSys then s.mailEvent else t

end Sys2Proof.Machine
end

