-- ==== Sys2Proof/Machine/Faults.lean ====
section
/-! DEFINITION. Faults (spec/13): what a fault aborts and records (R377, R379, R380, R382), the abort flit and the Ridge
bits, and the abort of a partition's bakes (R327, R382-R384). -/
namespace Sys2Proof.Machine

/-! ### The launch table as the hub sees it (R364) -/

def ltOff (e w : Nat) : Nat := 0x310000 + 0x40 * e + 8 * w
def State.ltV (s : State) (e : Nat) : Bool := s.fld (ltOff e 0) 63 63 == 1
def State.ltPart (s : State) (e : Nat) : Nat := s.fld (ltOff e 0) 61 58
def State.ltGroup (s : State) (e : Nat) : Nat := s.fld (ltOff e 0) 51 40

def partOff (p w : Nat) : Nat := 0x1000 + 0x40 * p + 8 * w

/-- The launch-table entry and SEQ of a bake of a group with a delivery tally. -/
def State.bakeOf (s : State) (group tally : Nat) : Option (Nat × Nat) :=
  s.launches.findSome? (fun e => (e.2.find? (fun r => r.group == group && r.tally == tally)).map (fun r => (e.1, r.seq)))

/-! ### Fault records (R380) -/

/-- One record written to HUB.FLOG and signalled. -/
def State.faultRecord (s : State) (ws : List Word) : State :=
  let w := s.fld 0x344000 31 0
  let off := 0x340000 + 0x40 * (w % 256)
  let s := ws.zipIdx.foldl (fun (s : State) x => s.setReg (off + 8 * x.2) x.1) s
  (s.setReg 0x344000 (BitVec.ofNat 64 ((w + 1) % 2 ^ 32))).mailEvent

def flogW1 (cls : Nat) (hard stop : Bool) (gen part dmod : Nat) (unit : UnitId) : Word :=
  BitVec.ofNat 64 (cls * 2 ^ 60 + hard.toNat * 2 ^ 59 + stop.toNat * 2 ^ 58 + gen % 256 * 2 ^ 48 + part % 16 * 2 ^ 44 +
    dmod % 64 * 2 ^ 38 + unit.toNat)

/-- The record of a group whose generation advances. -/
def State.groupRecord (s : State) (a : AbortRec) : State :=
  let v := a.bakes.head?
  let seq := (v.map (fun b => b.seq)).getD 0
  let lte := ((v.map (fun b => b.lte.getD 0))).getD 0
  s.faultRecord
    [ BitVec.ofNat 64 a.tf
    , flogW1 a.cls a.hard a.stop a.gen a.part a.dmod (UnitForm.toId (.group a.group))
    , BitVec.ofNat 64 a.frame, BitVec.ofNat 64 seq
    , BitVec.ofNat 64 (lte * 2 ^ 56 + min 255 a.rcnt * 2 ^ 48) ]

/-! ### Which partitions a fault names (R36, R377) -/

def mask16 (f : Nat → Bool) : Nat := ((List.range 16).map (fun p => if f p then 2 ^ p else 0)).foldl (· + ·) 0

/-- Does a core run or hold a bake of the partition? -/
def Core.bakeOfPart (c : Core) (p : Nat) : Bool :=
  (c.seq.run && c.seq.part == p) || c.fifo.any (fun m => match m with
    | .launch l _ => l.part == p
    | .patch _ => false)

/-- The groups that a fault of the core is reported against: of the bake that it runs, and of every message in its FIFO
(R36). -/
def Core.groupsHere (c : Core) : List Nat :=
  ((if c.seq.run then [c.seq.group] else []) ++ c.fifo.filterMap (fun m => groupOf m.unit)).eraseDups

/-- Every partition with a bake on the module. -/
def State.bakeParts (s : State) : Nat := mask16 (fun p => s.cores.any (fun e => e.2.bakeOfPart p))

/-- Every partition with a group that reaches module j. -/
def State.groupParts (s : State) (j : Nat) : Nat :=
  let gs := ((s.regs.filter (fun e => decide (0x100000 ≤ e.1) && decide (e.1 < 0x120000) && e.1 % 32 == 0)).map
    (fun e => (e.1 - 0x100000) / 32)).filter (fun i => s.gdV i && (s.reach 6 (UnitForm.toId (.group i))).any
      (fun r => match UnitForm.ofId r.1 with
        | .core m _ _ _ => m == j
        | _ => false))
  mask16 (fun p => gs.any (fun i => natBit (s.gdPmask i) p))

/-- The partitions whose bakes a fault aborts: for a core fault those of the bake that the unit runs and of the bakes
queued on it, for a droop fault every one with a bake on the module, for a module loss every one with a group that
reaches the module; else those that the detector names. -/
def State.faultParts (s : State) (f : FaultEvent) : Nat :=
  match f.cls with
  | 0 => (match UnitForm.ofId f.unit with
      | .core _ d k l => mask16 (fun p => (s.core ⟨d, k, l⟩).bakeOfPart p)
      | .cluster _ d k => mask16 (fun p => (List.range 16).any (fun l => (s.core ⟨d, k, l⟩).bakeOfPart p))
      | _ => f.parts)
  | 4 => s.bakeParts
  | 5 => (match UnitForm.ofId f.unit with
      | .module m => s.groupParts m
      | _ => s.bakeParts)
  | _ => f.parts

/-- The groups that a core fault is reported against (R36). -/
def State.faultGroups (s : State) (f : FaultEvent) : List Nat :=
  match f.cls, UnitForm.ofId f.unit with
  | 0, .core _ d k l => (s.core ⟨d, k, l⟩).groupsHere
  | 0, .cluster _ d k => (((List.range 16).map (fun l => (s.core ⟨d, k, l⟩).groupsHere)).flatten).eraseDups
  | _, _ => []

/-! ### CL.ERR (R379) -/

def errOff (d k : Nat) : Nat := clOff d k 0x80

/-- Firmware's rule of R379: a core that has raised two earlier core faults within 2^26 ticks counts as failed hard. -/
def State.hardRule (s : State) (f : FaultEvent) : Bool :=
  match f.cls, UnitForm.ofId f.unit with
  | 0, .core _ d k l => (match s.key ⟨d, k, l⟩ with
      | some key => decide (2 ≤ (s.coreFaults.filter (fun e => e.1 == key && decide (s.tally < e.2 + 2 ^ 26))).length)
      | none => false)
  | _, _ => false

/-- The capture of a core fault: the kind, the physical slot, position, template, TAG and GEN. A fault without a capture
concerns no command. -/
def State.captureErr (s : State) (f : FaultEvent) : State :=
  let at_ (d k pslot : Nat) (c : Core) (hard : Bool) : State :=
    let w := f.capture.getD (faultCapture 0 7 c.seq.tmpl c.seq.tag)
    if s.fld (errOff d k) 63 63 = 1 then s
    else s.setReg (errOff d k) (BitVec.ofNat 64 (2 ^ 63 + hard.toNat * 2 ^ 62 + bits w 3 0 * 2 ^ 58 + pslot * 2 ^ 53 +
      bits w 6 4 * 2 ^ 50 + bits w 13 8 * 2 ^ 44 + bits w 31 16 * 2 ^ 28 + c.seq.gen * 2 ^ 20))
  match UnitForm.ofId f.unit with
  | .core _ d k l => (match s.key ⟨d, k, l⟩ with
      | some key =>
          let s1 := at_ d k (key % 17) (s.coreAt key) (s.hardRule f)
          { s1 with coreFaults := s.coreFaults ++ [(key, s.tally)] }
      | none => s)
  | .cluster _ d k => at_ d k 31 Core.reset false
  | _ => s

/-! ### The abort (R327, R382-R384) -/

/-- F_A: the first frame in which the phase of each named partition has not yet begun (R382). -/
def State.abortFrame (s : State) (parts : Nat) : Nat :=
  let first := ((List.range 16).find? (fun p => natBit parts p)).getD 0
  if s.tally % 256 < 8 * (2 + first / 4) then s.tally / 256 else s.tally / 256 + 1

/-- A bake as an abort names it: group, GEN, partition, template and delivery tally. -/
abbrev BakeId := Nat × Nat × Nat × Nat × Nat

/-- The bakes that a core runs or holds; those queued carry the GEN that their group has now. -/
def Core.bakes (c : Core) (gen : Nat → Nat) : List BakeId :=
  (if c.seq.run then [(c.seq.group, c.seq.gen, c.seq.part, c.seq.tmpl, c.seq.tally)] else []) ++
    c.fifo.filterMap (fun m => match m with
      | .launch l _ => (groupOf l.unit).map (fun g => (g, gen g, l.part, l.tmpl, l.tally))
      | .patch _ => none)

/-- The key under which the consecutive aborts of a bake are counted: its group and launch-table entry. -/
def rcntKey (group : Nat) (lte : Option Nat) : Nat := group * 257 + (match lte with
  | some e => e + 1
  | none => 0)

/-- A voided bake is noted under its group: one record for a group in a frame. -/
def State.noteAbort (s : State) (frame cls dmod tf : Nat) (hard : Bool) (b : Nat × Nat × Nat × Nat × Nat) : State :=
  let group := b.1
  let tally := b.2.2.2.2
  let e := s.bakeOf group tally
  let v : Voided := { lte := e.map (fun x => x.1), seq := (e.map (fun x => x.2)).getD 0, tmpl := b.2.2.2.1, tally := tally }
  match s.aborts.find? (fun a => a.group == group && !a.changed) with
  | some a =>
      if a.bakes.contains v then s
      else { s with aborts := s.aborts.map (fun x => if x.group == group && !x.changed then { x with bakes := x.bakes ++ [v] } else x) }
  | none =>
      let key := rcntKey group v.lte
      let old := Tab.get (fun _ => (0, 0)) s.rcnt key
      let n := if old.1 = v.seq then old.2 + 1 else 1
      let part := b.2.2.1
      let stop := decide (s.fld (0x1400 + 8 * part) 39 36 < n)
      let a : AbortRec := { group := group, gen := b.2.1, part := part, frame := frame, cls := cls, hard := hard, dmod := dmod,
                            tf := tf, unit := 0, bakes := [v], rcnt := n, stop := stop, changed := false }
      let s := { s with aborts := s.aborts ++ [a], rcnt := Tab.set (fun _ => (0, 0)) s.rcnt key (v.seq, n) }
      if stop then s.setFld (partOff part 0) 62 62 0 else s

/-- A group aborted whose generation has not yet advanced (R384). -/
def State.abortedGroup (s : State) (g : Nat) : Option AbortRec := s.aborts.find? (fun a => a.group == g && !a.changed)

/-- TG of an abort (R385). -/
def AbortRec.tg (a : AbortRec) : Nat := 256 * (a.frame + 1)

/-- The group a hub message is for. -/
def portGroup (m : PortMsg) : Option Nat :=
  match m with
  | .launch l => groupOf l.unit
  | .patch p => groupOf p.unit
  | .abort u => groupOf u
  | .quiesce u => groupOf u

/-- A LAUNCH that the hub discards counts as an aborted bake, to be replayed (R317, R384): it joins the abort of its group,
or begins one of the watchdog class. -/
def State.voidLaunch (s : State) (m : PortMsg) : State :=
  match m with
  | .launch l => (match groupOf l.unit with
      | some g =>
          let b := (g, s.gdGen g, l.part, l.tmpl, l.tally)
          (match s.abortedGroup g with
            | some a => s.noteAbort a.frame a.cls a.dmod a.tf a.hard b
            | none => s.noteAbort (s.abortFrame (2 ^ l.part)) 3 s.me s.tally false b)
      | none => s)
  | _ => s

/-- Does R384 discard the message? -/
def State.suspended (s : State) (m : HubMsg) : Bool :=
  match portGroup m.body, m.tally with
  | some g, some t => (match s.abortedGroup g with
      | some a => decide (t < a.tg)
      | none => false)
  | _, _ => false

/-- The bakes queued or running on the module: at its cores, and at its hub with a delivery tally. -/
def State.bakes (s : State) : List BakeId :=
  (s.cores.map (fun e => e.2.bakes s.gdGen)).flatten ++ s.hubQ.filterMap (fun q => match q.msg.body with
    | .launch l => if q.msg.tally.isSome then (groupOf l.unit).map (fun g => (g, s.gdGen g, l.part, l.tmpl, l.tally)) else none
    | _ => none)

/-- An ABORT with a limit reaches a core: what it has written in the die cycle is undone, its units stop, and the combining
slots that name it are reset (R166). -/
def State.abortAt (s : State) (key : Nat) (u : Option CoreId) (unit : UnitId) (lim : Option Nat) : State :=
  let c := s.coreAt key
  let keeps := c.keepsBake unit lim
  let s := if keeps then s else s.undoCl key
  let s := s.atCore key (fun c => c.abort s.gdGen (c.rc s.now) s.cycle unit lim)
  match keeps, u, groupOf unit with
  | false, some u, some g => s.abortCombine u (fun v => s.inGroup g v)
  | false, some u, none => if c.seq.run then s.abortCombine u (fun v => s.inGroup c.seq.group v) else s
  | _, _, _ => s

/-- ABORT of a group at every core of the module that it reaches or that holds a message of it. -/
def State.abortGroup (s : State) (g : Nat) (lim : Option Nat) : State :=
  let unit := UnitForm.toId (.group g)
  let there := (s.reached unit).filterMap (fun r => s.key r.1)
  let held := s.cores.filterMap (fun e => if e.2.groupsHere.contains g then some e.1 else none)
  ((there ++ held).eraseDups).foldl (fun (s : State) key => s.abortAt key (s.idOf key) unit lim) s

/-- A group without a bake whose messages an abort removes: its generation advances too (R36, R385). -/
def State.noteGroup (s : State) (frame cls dmod tf : Nat) (hard : Bool) (g : Nat) : State :=
  if (s.abortedGroup g).isSome then s
  else
    let a : AbortRec := { group := g, gen := s.gdGen g, part := ((List.range 16).find? (fun p => natBit (s.gdPmask g) p)).getD 0,
                          frame := frame, cls := cls, hard := hard, dmod := dmod, tf := tf, unit := 0, bakes := [], rcnt := 0,
                          stop := false, changed := false }
    { s with aborts := s.aborts ++ [a] }

/-- ABORT to the bakes of the named partitions and groups that are queued or running on the module and whose delivery tally
lies below the limit, if one is given; it covers their groups whole (R35). The hub's queue follows. -/
def State.abortParts (s : State) (parts : Nat) (groups : List Nat) (lim : Option Nat) (frame cls dmod tf : Nat)
    (hard : Bool) : State :=
  let ours := s.bakes.filter (fun b => inLimit lim b.2.2.2.2)
  let gs := (groups ++ (ours.filter (fun b => natBit parts b.2.2.1)).map (fun b => b.1)).eraseDups
  let s := (ours.filter (fun b => gs.contains b.1)).foldl (fun (s : State) b => s.noteAbort frame cls dmod tf hard b) s
  let s := gs.foldl (fun (s : State) g => (s.noteGroup frame cls dmod tf hard g).abortGroup g lim) s
  { s with hubQ := s.hubQ.filter (fun q => !s.suspended q.msg) }

/-- The Ridge class bit of a fault (R325, R377); a module loss carries its own. -/
def ridgeBitOf (f : FaultEvent) : Nat :=
  match f.cls with
  | 0 => 0
  | 1 => 0
  | 2 => 1
  | 3 => 2
  | 4 => 3
  | 6 => 7
  | _ => ((f.capture.map (fun w => w.toNat)).getD 6) % 8

/-- The body of an abort flit: T_F, F_A, the class, the detecting module and the partitions (log 18). -/
def abortBody (tf frame cls dmod parts : Nat) : List Byte :=
  bytesLE tf 8 ++ bytesLE frame 8 ++ bytesLE cls 1 ++ bytesLE dmod 1 ++ bytesLE parts 2

/-- The modules that hold a member of a group. -/
def State.groupModules (s : State) (g : Nat) : List Nat :=
  ((s.reach 6 (UnitForm.toId (.group g))).filterMap (fun r => match UnitForm.ofId r.1 with
    | .core m _ _ _ => some m
    | _ => none)).eraseDups

/-- Abort flits to every other module concerned (R382). -/
def State.sendAborts (s : State) (all : Bool) (groups : List Nat) (body : List Byte) : State :=
  let ms := (if all then List.range s.nmod else (groups.map s.groupModules).flatten.eraseDups).filter (fun m => !s.answers m)
  ms.foldl (fun (s : State) m =>
    s.sendSys { emptyFlit with type := 6, srcmod := s.me, dstmod := m, sent := s.cycle % 2 ^ 24,
                               len := body.length - 1, body := body }) s

/-- The compute dies' ready bits fall (R419). -/
def State.diesDown (s : State) : State := (List.range 4).foldl (fun (s : State) d => s.setReady 0x430010 (49 + d) false) s

/-- A compute die without a ready cluster is not ready (R419). -/
def State.dieLost (s : State) (d : Nat) : State :=
  if s.fld 0x430018 (12 * d + 11) (12 * d) = 0 then s.setReady 0x430010 (49 + d) false else s

/-- The loss of this module, as a fault of class 5 (R377). -/
def State.ownLoss (s : State) : FaultEvent :=
  { cls := 5, unit := UnitForm.toId (.module s.me), parts := 0, capture := some 6 }

/-- A failing DRAM line is rewritten from its copy, and one that fails again counts as the loss of its stack (R394); the
third failed wire pair of an in-package link, which the capture of a link fault names, as that of the module (R395). -/
def State.escalate (s : State) (f : FaultEvent) : FaultEvent × State :=
  match f.cls, f.capture with
  | 1, some w =>
      let l := captureLine w
      if s.rewritten.contains l then (s.ownLoss, s.setReady 0x430010 (41 + l.1) false)
      else
        let x := s.dramOf l.1
        (f, { s.setDram l.1 { x with ecc := Tab.erase l.2 x.ecc } with rewritten := s.rewritten ++ [l] })
  | 2, some w =>
      let n := Tab.get zeroN s.pairs w.toNat + 1
      let s := { s with pairs := Tab.set zeroN s.pairs w.toNat n }
      if n < 3 then ({ f with parts := s.bakeParts }, s) else (s.ownLoss, s)
  | _, _ => (f, s)

/-- Faults whose repair restarts the counts of R391: a line rewritten, a wire pair moved. -/
def repairedFault (f : FaultEvent) : Bool := (f.cls == 1 || f.cls == 2) && f.capture.isSome

/-- Does a fault lie outside single-fault recovery because this module is lost and has no standby (R403)? -/
def State.beyond (s : State) (f : FaultEvent) : Bool :=
  f.cls == 5 && s.fld 0x130 63 62 != 1 && (match UnitForm.ofId f.unit with
    | .module m => s.answers m
    | _ => true)

/-- RUN of the named partitions cleared: nothing of them runs until the host has it set again (R391, R403). -/
def State.clearRun (s : State) (parts : Nat) : State :=
  ((List.range 16).filter (natBit parts)).foldl (fun (s : State) p => s.setFld (partOff p 0) 62 62 0) s

/-- Does a unit lie in a cluster of this module? -/
def State.inCluster (s : State) (u : UnitId) (d k : Nat) : Bool :=
  match UnitForm.ofId u with
  | .core m d' k' _ => s.answers m && d' == d && k' == k
  | .cluster m d' k' => s.answers m && d' == d && k' == k
  | _ => false

/-- A core or combining unit that fails: no bake of a group that reaches it is launched until it is repaired (R36, R40,
R393). -/
def State.holdUnit (s : State) (u : UnitId) : State := if s.unfit.contains u then s else { s with unfit := s.unfit ++ [u] }

/-- The repair of a unit is complete. -/
def State.freeUnit (s : State) (u : UnitId) : State := { s with unfit := s.unfit.filter (fun v => v != u) }

/-- Does a group reach a unit that waits for its repair? -/
def State.launchHeld (s : State) (g : Nat) : Bool :=
  !s.unfit.isEmpty && (s.reached (UnitForm.toId (.group g))).any (fun r =>
    s.unfit.contains (s.unitOf r.1) || s.unfit.contains (UnitForm.toId (.cluster s.me r.1.die r.1.cluster)))

/-- A hard fault in a cluster whose spare is in use or unfit leaves a logical slot without a core: the cluster's ready
bit falls (R40, R393). It lies outside single-fault recovery: the bakes that it aborted are not replayed, and RUN of their
partitions falls (R403). -/
def State.hardFault (s : State) (d k : Nat) : State :=
  let w := s.reg (clOff d k 0)
  if bitAt w 23 || !bitAt w 24 then
    let s := (s.setReady 0x430018 (12 * d + k) false).dieLost d
    let ours := s.aborts.filter (fun a => a.cls == 0 && !a.changed && s.inCluster a.unit d k)
    let s := s.clearRun (ours.foldl (fun n a => nor n (2 ^ a.part)) 0)
    { s with aborts := s.aborts.map (fun a => if ours.contains a then { a with stop := true } else a) }
  else s

/-- The module detects a fault (R382): the capture, ABORT, the Ridge abort and the abort flits. A core or memory fault
that no bake meets aborts nothing and is recorded under the unit (R36). The loss of this module takes its compute dies'
ready bits (R419). -/
def State.detect (s : State) (f : FaultEvent) : State :=
  let r := s.escalate f
  let f := r.1
  let s := r.2
  let parts := s.faultParts f
  let groups := s.faultGroups f
  let stop := s.beyond f
  let hard := s.hardRule f
  let s := if stop then s.clearRun parts else s
  let s := if f.cls = 0 then s.captureErr f else s
  let s := if f.cls = 5 && f.unit == UnitForm.toId (.module s.me) then s.diesDown else s
  let s :=
    if parts = 0 && groups.isEmpty && decide (f.cls ≤ 1) then
      (if f.cls = 0 then s.holdUnit f.unit else s).faultRecord [BitVec.ofNat 64 s.tally, flogW1 f.cls hard false 0 0 s.me f.unit, 0, 0, 0]
    else
      let frame := s.abortFrame parts
      let before := s.aborts.length
      let s := s.abortParts parts groups none frame f.cls s.me s.tally hard
      let s := { s with aborts := s.aborts.take before ++
        (s.aborts.drop before).map (fun (a : AbortRec) => { a with unit := f.unit, stop := a.stop || stop }) }
      let groups := (s.aborts.drop before).map (fun a => a.group)
      let s := { s with cad := { s.cad with aborts := s.cad.aborts ++ [({ frame := frame, parts := parts, cls := 2 ^ ridgeBitOf f } : RidgeAbort)] } }
      s.sendAborts (f.cls == 5) groups (abortBody s.tally frame f.cls s.me parts)
  match hard, UnitForm.ofId f.unit with
  | true, .core _ d k _ => (s.holdUnit f.unit).hardFault d k
  | _, _ => if repairedFault f then { s with rcnt := [] } else s

/-- The faults raised in the die cycle that ends are detected. -/
def State.detectAll (s : State) : State := s.raised.foldl State.detect { s with raised := [] }

/-- A copy of an abort arrives, by flit or by the Ridge: it names bakes whose delivery tally is earlier than the first
edge of phase 2 of frame F_A (R327, R382). -/
def State.abortCopy (s : State) (parts frame cls dmod tf : Nat) : State :=
  s.abortParts parts [] (some (256 * frame + 16)) frame cls dmod tf false

end Sys2Proof.Machine
end

