-- ==== Sys2Proof/Machine/Cycle.lean ====
section
/-! DEFINITION. The passing of die cycles (spec/07, spec/11): stalls and their end (R216-R218), what happens in a core in
each running cycle, the die cycles of a tick (R315) and the tally (R313, R316). Commands that act when something is due
pass die cycles of the tick in progress until it is (log 6). -/
namespace Sys2Proof.Machine

/-! ### Proof points (R158, R216) -/

/-- Do the queue ends hold what all the needs together ask for? -/
def Core.needsMet (c : Core) (ns : List QueueNeed) : Bool :=
  ns.all (fun n =>
    let total := ((ns.filter (fun x => x.q == n.q && x.push == n.push)).map (fun x => x.m)).foldl (· + ·) 0
    c.needMet { n with m := total })

/-- The channel pops and pushes of running cycle rc that are still to be made. -/
def State.cycleNeeds (s : State) (key rc : Nat) : List QueueNeed :=
  let c := s.coreAt key
  c.readNeeds rc ++ s.landNeeds key rc ++
    (match vxDueRun c rc with
      | some x => vxWriteNeeds c x.1 x.2
      | none => []) ++
    (match mxDueRun c rc with
      | some r => mxPushNeeds c r
      | none => []) ++
    (c.late.map (fun l => match l.eff with
      | .side q vs => if l.due ≤ rc then c.sideNeed q vs else []
      | _ => [])).flatten

/-- The transfer that emits in the running cycle in progress: one operation in each. -/
def State.nextEmit (s : State) (key : Nat) : Option Xfer :=
  let c := s.coreAt key
  let rc := c.rc s.now
  if c.emAt == rc + 1 then none else s.emitter key rc

/-- The transfer that may emit now: a stalled core emits nothing. -/
def State.mayEmit (s : State) (key : Nat) : Option Xfer := if (s.coreAt key).stall.isSome then none else s.nextEmit key

/-- Does the operation that the core emits next still lack a tag (R255)? -/
def State.lacksTag (s : State) (key : Nat) (u : CoreId) : Option Xfer :=
  if (s.coreAt key).heldTag.isSome then none
  else match s.nextEmit key with
    | some x => if s.emitTag key u x then some x else none
    | none => none

/-- The cores of a die whose next operation lacks a tag, stalled or not (R258), lower cluster and then lower logical slot
first (R257). -/
def State.tagWaiters (s : State) (d : Nat) : List (Nat × Nat × Nat) :=
  let ws := s.cores.filterMap (fun e => match s.idOf e.1 with
    | some u => if u.die == d && !e.2.xfers.isEmpty then (s.lacksTag e.1 u).map (fun x => (16 * u.cluster + u.slot, e.1, x.part))
        else none
    | none => none)
  ws.insertionSort (fun a b => a.1 ≤ b.1)

/-- A tag goes to the first waiting core whose partition may have one. -/
def State.grantTag (s : State) (d : Nat) : State :=
  match (s.tagWaiters d).find? (fun w => s.tagFree d w.2.2) with
  | none => s
  | some w =>
      let t := s.takeTag d w.2.2
      t.2.atCore w.2.1 (fun c => { c with heldTag := some t.1 })

/-- The tags of a die that can be granted in a die cycle. -/
def State.grantTags (s : State) (d : Nat) : State :=
  (List.range (s.tagWaiters d).length).foldl (fun (s : State) _ => s.grantTag d) s

/-- The causes pending in a stall, as instances of event 0x01. -/
def State.causes (s : State) (key : Nat) (st : Stall) : List Nat :=
  let c := s.coreAt key
  let die := key / 17 / 12
  let open_ (push : Bool) : Bool := !c.needsMet (st.queues.filter (fun n => n.push == push))
  (if open_ false then [0] else []) ++ (if open_ true then [1] else []) ++
    (match st.sync with
      | some w => if s.syncMet die w then [] else [2]
      | none => []) ++
    (if st.tag && c.heldTag.isNone then [3] else []) ++
    (if s.lateData key (c.rc s.now) then [4] else [])

/-- The core stalls in the running cycle (R217); if it still does at the end of the die cycle, the trace records it. -/
def State.stallCore (s : State) (key : Nat) (st : Stall) : State :=
  s.atCore key (fun c => { c with stall := some { st with since := s.tally, fresh := true } })

def emptyStall : Stall := { queues := [], sync := none, tag := false, emit := false, held := false, since := 0 }

/-- The bundle that is due in running cycle rc. -/
def Core.dueBundle (c : Core) (rc : Nat) : Option Bundle :=
  if c.hasBundle && decide (c.bundleDue ≤ rc) then some c.bundle else none

/-- Does a QX command wait (R269, R275)? -/
def QxOp.waits : QxOp → Bool
  | .wait _ _ => true
  | .barrierD _ => true
  | _ => false

/-- The WAIT or BARRIER.D of a bundle that SKIP does not turn off begins. -/
def State.beginWait (s : State) (key : Nat) (u : CoreId) (rc : Nat) (b : Bundle) : Option SyncWait × State :=
  match b.qx with
  | some q => if q.waits && (s.coreAt key).seq.skip == 0 then s.qx key u rc q else (none, s)
  | none => (none, s)

/-- The proof points of the running cycle in progress, all of them together: of what is in progress, of the bundle, if one
issues, and of the operation emitted; with the state in which the bundle's WAIT has begun. In forerunner mode an operation
that lacks a tag waits without a stall (R258). -/
def State.proofPoints (s : State) (key : Nat) (u : CoreId) (b : Option Bundle) : Stall × State :=
  let rc := (s.coreAt key).rc s.now
  let w := match b with
    | some b => s.beginWait key u rc b
    | none => (none, s)
  let t := match b with
    | some b => if (w.2.coreAt key).seq.skip = 0 then w.2.atCore key (fun c => c.issueMxVx rc b) else w.2
    | none => w.2
  let lacks := (w.2.lacksTag key u).isSome
  let em := match w.2.nextEmit key with
    | some x => if lacks && (w.2.coreAt key).forerunner then none else some x
    | none => none
  let ns := t.cycleNeeds key rc ++ (match em with
    | some x => t.emitNeeds key x
    | none => [])
  ({ queues := ns, sync := w.1, tag := lacks && em.isSome, emit := em.isSome, held := b.isSome, since := 0 }, w.2)

/-- A running cycle that finds a pop, a push, a WAIT, a tag or data unmet stalls the core before anything in it is performed
(R216-R218). -/
def State.checkCycle (s : State) (key : Nat) (u : CoreId) : State :=
  let c := s.coreAt key
  if c.stall.isSome then s
  else
    let p := s.proofPoints key u (c.dueBundle (c.rc s.now))
    if (p.2.causes key p.1).isEmpty then s else p.2.stallCore key p.1

/-- A command singly issued into the running cycle may meet a proof point in it. -/
def State.checkNeeds (s : State) (key : Nat) : State :=
  let c := s.coreAt key
  if c.stall.isSome then s
  else
    let ns := s.cycleNeeds key (c.rc s.now)
    if c.needsMet ns then s else s.stallCore key { emptyStall with queues := ns }

/-- Do the conditions of every proof point of the running cycle hold together (R218)? -/
def State.mayResume (s : State) (key : Nat) : Bool :=
  match (s.coreAt key).stall with
  | some st => (s.causes key st).isEmpty
  | none => false

/-! ### One die cycle -/

/-- The effects of QX commands that land at the end of running cycle rc without a row of their own (R200): stores,
bindings, SC additions, and the scratchpad read of SLD. -/
def Core.landQx (c : Core) (rc : Nat) : Core :=
  let due : List Late := c.late.filter (fun l => decide (l.due ≤ rc))
  due.foldl (fun (c : Core) l => match l.eff with
    | .load sd a =>
        let r := c.readFrom 12 a 8
        { r.2 with late := r.2.late.erase l ++ [⟨rc + regionLat false a 8 + 1, l.issue, .sreg sd (BitVec.ofNat 64 (natLE r.1))⟩] }
    | .store a v => ({ c with late := c.late.erase l } : Core).writeTo 12 a (bytesLE v.toNat 8)
    | .bind n w0 w2 => ({ c with late := c.late.erase l } : Core).bind n w0 w2
    | .scMx r lo hi => ({ c with late := c.late.erase l } : Core).scAdd r lo hi
    | .scVx r lo hi => ({ c with late := c.late.erase l } : Core).scAdd r lo hi
    | .side q vs => ({ c with late := c.late.erase l } : Core).pushSide q vs
    | _ => c) c

/-- The end of a running cycle: what was not commanded singly is performed. -/
def Core.leave (c : Core) (rc : Nat) : Core :=
  let st := c.seqState rc
  ((c.beginCycle rc).landQx rc).ev 0x00 0 (if st = 1 ∨ st = 3 then 1 else 0)

/-- The notes of a die cycle are dropped, once its writes have had their ECC effect. -/
def Core.endNotes (c : Core) : Core :=
  { c.settleEcc with slog := [], wlog := [], busy := [], sticky := [], clog := [], extGo := 0, seq := { c.settleEcc.seq with pre := false } }

/-! ### EXT-U (R143, R146) -/

/-- The 16 B units that an access touches, those that exist. -/
def ExtAcc.units (a : ExtAcc) : List Nat :=
  (((List.range a.len).map (fun i => (a.addr + i) / 16)).eraseDups).filter (fun n => decide (n * 16 < spadEnd))

/-- Is the port of every sub-bank that an EXT-U access wants unused in the die cycle in progress? -/
def Core.extFree (c : Core) (a : ExtAcc) : Bool :=
  a.units.all (fun n => match a.write with
    | some _ => !c.wlog.any (fun w => subBank w.unit == subBank n)
    | none => !c.busy.any (fun e => e.1 == subBank n))

/-- The oldest EXT-U access takes place through its port. -/
def State.extAccess (s : State) (key : Nat) : State :=
  let c := s.coreAt key
  match c.extU with
  | [] => s
  | a :: t =>
      let c := { c with extU := t }
      match a.write with
      | some bs =>
          let s := s.setCoreAt key (c.writeTo 14 a.addr bs)
          (match a.for_ with
            | .op id => (match s.op id with
                | some o => s.completeOp o
                | none => s)
            | .flit f => s.effectFlit f
            | .host => s)
      | none =>
          let r := c.readFrom 14 a.addr a.len
          let s := s.setCoreAt key r.2
          (match a.for_ with
            | .op id => (match s.op id with
                | some o => (s.setOp { o with data := r.1, stage := .ready, due := s.now }).onward id
                | none => s)
            | .flit f => s.reply f r.1 false (some (key / 17 / 12))
            | .host => { s with hostOut := s.hostOut ++ [.data r.1] })

/-- The EXT-U accesses of a die cycle, in order of arrival, up to the first that finds a sub-bank in use (R146). -/
def State.extAccesses (key : Nat) : Nat → State → State
  | 0, s => s
  | n + 1, s =>
      let c := s.coreAt key
      match c.extU with
      | [] => s
      | a :: _ => if c.extGo ≠ 0 && c.extFree a then
            State.extAccesses key n ((s.setCoreAt key { c with extGo := c.extGo - 1 }).extAccess key)
          else s

/-- A stall that lasts beyond its first moment begins in the trace, with its causes as a bit mask (R449). -/
def Core.stallBegins (c : Core) (dcy : Nat) (st : Stall) (causes : List Nat) : Core :=
  if st.fresh then
    ({ c with stall := some { st with fresh := false } } : Core).trace dcy 3 1 ((causes.map (fun n => 2 ^ n)).foldl (· + ·) 0)
  else c

/-- The end of the die cycle at one core: a stalled one holds and is counted under every pending cause (R217); EXT-U takes
what the other ports have left in either case. -/
def State.leaveCore (s : State) (key : Nat) : State :=
  let c := s.coreAt key
  let s := match c.stall with
    | some st =>
        let l := s.causes key st
        let s1 := l.foldl (fun (s : State) i => s.noteCore key 0x01 i 1) s
        s1.atCore key (fun c => { c.stallBegins s.cycle st l with skew := c.skew + 1 })
    | none => s.atCore key (fun c => c.leave (c.rc s.now))
  (State.extAccesses key c.extGo s).atCore key Core.endNotes

/-- A bake that a QUIESCE ends is treated as an aborted one (R177), of the host class (DESIGN CHOICE, log 59). -/
def State.noteQuiesced (s : State) (c : Core) : State :=
  s.noteAbort (s.abortFrame (2 ^ c.seq.part)) 6 s.me s.tally false (c.seq.group, c.seq.gen, c.seq.part, c.seq.tmpl, c.seq.tally)

/-- The start of a die cycle at one core: its yield point, and the proof points of the cycle; a WAIT on a remote object
whose value was short reads it again (R269). -/
def State.enterCore (s : State) (key : Nat) : State :=
  let c := s.coreAt key
  match c.stall, s.idOf key with
  | some st, some u => (match st.sync with
      | some (.remote m d i t adm _ (some v)) =>
          if v < t then
            let r := s.sendWaitRead u c m d i t adm
            r.2.atCore key (fun c => { c with stall := some { st with sync := some r.1 } })
          else s
      | _ => s)
  | none, some u =>
      let rc := c.rc s.now
      let s := if c.quiesced rc then s.noteQuiesced c else s
      (s.atCore key (fun c => c.yieldPoint s.gdGen rc)).checkCycle key u
  | _, none => s

/-- Partitions with a core whose operation waits for a tag, by die (event 0x20). -/
def State.tagWaits (s : State) : State :=
  (List.range 4).foldl (fun (s : State) d =>
    ((s.tagWaiters d).map (fun w => w.2.2)).eraseDups.foldl (fun (s : State) p => s.noteDie d 0x20 p 1) s) s

/-- The end of the die cycle in progress. -/
def State.leaveCycle (s : State) : State :=
  let s := if s.cad.stopped then s else (s.cores.map (fun e => e.1)).foldl State.leaveCore s.tagWaits
  s.detectAll.countEvents

/-- The start of a die cycle: combining units, tags for those that wait (R257), and the cores. -/
def State.enterCycle (s : State) : State :=
  if s.cad.stopped then s
  else (s.cores.map (fun e => e.1)).foldl State.enterCore ((List.range 4).foldl State.grantTags s.cmbMoves.riders)

/-- One die cycle of the tick in progress passes, if one is left. -/
def State.passCycle (s : State) : State :=
  if s.left = 0 then s
  else
    let s := s.leaveCycle
    ({ s with now := s.now + 1, left := s.left - 1 } : State).enterCycle

/-- Die cycles of the tick pass until the condition holds, or the tick's last is reached. -/
def State.waitFor (cond : State → Bool) : Nat → State → State
  | 0, s => s
  | n + 1, s => if cond s || s.left == 0 then s else State.waitFor cond n s.passCycle

/-- What a command does when its item is due: it waits within the tick, and does nothing if the item does not fall due
in it. -/
def State.whenDue (s : State) (cond : State → Bool) (act : State → State) : State :=
  let t := s.waitFor cond (s.left + 1)
  if cond t then act t else s

/-- What a command of a running core does when its item is due: a stalled core performs nothing and waits for nothing
(R217). -/
def State.whenCore (s : State) (key : Nat) (cond : State → Bool) (act : State → State) : State :=
  s.whenDue (fun s => (s.coreAt key).stall.isSome || cond s) (fun s => if (s.coreAt key).stall.isSome then s else act s)

/-! ### Die cycles of a tick (R315, R336) -/

/-- S(u), the sum of the triangular profile up to u. -/
def profileSum (u : Nat) : Nat := if u ≤ 384 then u * (u - 1) / 2 else 147456 - (768 - u) * (769 - u) / 2

/-- W(T). -/
def profileW (t : Nat) : Nat := 147456 * (t / 768) + profileSum (t % 768)

/-- n(T) for step N and depth code k. -/
def cyclesOf (n k t : Nat) : Nat := n - (n * k * profileW (t + 1) / 153600 - n * k * profileW t / 153600)

def State.ncur (s : State) : Nat := s.fld 0x400020 63 56
def State.depthNow (s : State) : Nat := s.fld 0x400030 63 61

/-- The number of die cycles of the tick in progress, taken anew where none of them has ended. -/
def State.retick (s : State) : State :=
  if s.left + 1 = s.tickLen then
    let n := max 1 (cyclesOf s.ncur s.depthNow s.tally)
    { s with tickLen := n, left := n - 1, ticks := (s.ticks.head?.map (fun e => (e.1, e.2.1, n))).toList ++ s.ticks.drop 1 }
  else s

/-! ### The tally (R313, R316, R322) -/

/-- The die cycles left of the tick pass. -/
def State.passRest (s : State) : State := s.waitFor (fun _ => false) (s.left + 1)

/-- The tally of the next tick: the walk's origin where the start pulse has set it. -/
def State.nextTally (s : State) : Nat :=
  match s.cad.walkIn with
  | some 1 => 0
  | _ => s.tally + 1

/-- Messages whose delivery tally has come enter the core FIFOs 64 die cycles after its first (R317). -/
def State.stampHub (s : State) : State :=
  { s with hubQ := s.hubQ.map (fun q => match q.due, q.msg.tally with
      | none, some t => if t = s.tally then { q with due := some (s.now + 64) } else q
      | _, _ => q) }

def State.topoSolo (s : State) : Bool := s.fld 0x400010 58 58 == 1

/-- The highest step of the module's grade, and ceil and floor of R330. -/
def State.gradeCeil (s : State) : Nat := if s.fld (clOff 0 0 0) 48 32 = 0 then 72 else 64
def State.voteCeil (s : State) : Nat := min (min (s.fld 0x200000 55 48) (s.fld 0x400020 39 32)) s.gradeCeil
def State.voteFloor (s : State) : Nat :=
  min s.voteCeil (s.fld 0x400020 31 24 + (if s.depthNow = 0 then 0 else 1))

def regionOff (r : Nat) : Nat := 0x400400 + 8 * r

/-- Every region's vote at ceil. -/
def State.votesToCeil (s : State) : State :=
  (List.range 53).foldl (fun (s : State) r => s.setFld (regionOff r) 63 56 s.voteCeil) s

/-- At cadence lock every vote is at its ceiling (R330, R458). -/
def State.lockVotes (s : State) : State :=
  let s := (s.votesToCeil.setFld 0x400080 7 0 72).setFld 0x400020 47 40 s.voteCeil
  { s with cad := { s.cad with pclean := 0 } }

/-- MVOTE: the lowest of the region votes and the cap controller's. -/
def State.moduleVote (s : State) : State :=
  s.setFld 0x400020 47 40 (((List.range 53).map (fun r => s.fld (regionOff r) 63 56)).foldl min (s.fld 0x400080 7 0))

/-- No vote exceeds ceil, which a write or a published table may have lowered (R330). -/
def State.clampVotes (s : State) : State :=
  let high := (List.range 53).filter (fun r => decide (s.voteCeil < s.fld (regionOff r) 63 56))
  if high.isEmpty then s else (high.foldl (fun (s : State) r => s.setFld (regionOff r) 63 56 s.voteCeil) s).moduleVote

/-- The bits of CAD.STAT (R338). -/
def State.stat (s : State) (b : Nat) : Bool := s.fld 0x400010 b b == 1
def State.setStat (s : State) (b : Nat) (v : Bool) : State := s.setFld 0x400010 b b v.toNat

/-- The aborts that the module raises in frame F: with ALIGNED = 0 only that of the loss of CADENCE itself (R311, R325;
log 36). -/
def State.abortsOf (s : State) (f : Nat) : List RidgeAbort :=
  s.cad.aborts.filter (fun a => a.frame == f && (s.stat 62 || a.cls == 2 ^ 5))

/-- What a module contributes in phase q of frame F (R325, R327-R331): with ALIGNED = 0 its own loss of CADENCE at most. -/
def State.ridgeDrive (s : State) (f q : Nat) : Nat :=
  let nib (x : Nat) (k : Nat) : Nat := x / 2 ^ (4 * k) % 16
  let ab := s.abortsOf f
  let parts := ab.foldl (fun n a => nor n a.parts) 0
  let cls := ab.foldl (fun n a => nor n a.cls) 0
  if !s.stat 62 && !(decide (2 ≤ q) && decide (q ≤ 7)) then 0
  else if q = 0 then (if s.fld 0x400010 60 60 = 1 then 5 else 0)
  else if q = 1 then (if s.fld 0x400010 60 60 = 1 then nib (s.tally / 256) (f % 14) else 0)
  else if q ≤ 5 then nib parts (q - 2)
  else if q ≤ 7 then nib cls (q - 6)
  else if 10 ≤ q ∧ q ≤ 17 then
    ((List.range 4).map (fun i =>
      let w := s.reg (0x400100 + 8 * (4 * (q - 10) + i))
      if bitAt w 63 && !bitAt w 62 && decide (bits w 55 0 ≤ f) then 2 ^ i else 0)).foldl (· + ·) 0
  else if 18 ≤ q ∧ q ≤ 23 then (if !s.cad.out && natBit (72 - s.fld 0x400020 47 40) (23 - q) then 3 else 0)
  else if q = 24 then (if s.depthNow = 0 then 0 else 2 ^ (s.depthNow - 1))
  else if q = 25 then (if s.depthNow = 0 then 1 else 0)
  else if q = 26 ∨ q = 27 then nib (s.fld 0x400060 7 0) (q - 26)
  else 0

/-- What the module drives in the walk (R322, R323): the start pulse of module 0, then in the slot of its own POS that it
is there, its grade, and the serial bits. -/
def State.walkDrive (s : State) (t : Nat) : Nat :=
  let pos := s.fld 0x400010 5 0
  let sub := t % 256 / 4
  if !s.cad.walked then 0
  else if s.cad.walkIn.isSome then (if pos = 0 then 3 else 0)
  else if t / 256 ≠ pos then 0
  else if sub = 0 then (if s.fld (clOff 0 0 0) 48 32 = 0 then 1 else 3)
  else if sub ≤ 32 then (if bitAt (Config.certSerial.setWidth 64) (sub - 1) then 4 else 8)
  else 0

/-- Is the walk under way, from the start pulse to tally 16 384 (R322, R323)? -/
def State.walking (s : State) : Bool := s.cad.walked && (s.cad.walkIn.isSome || decide (s.tally < 16384))

/-- Does the module forward between its two ports (R319, R320)? In the walk, before CAD.STAT says so, module 0 of 64. -/
def State.bridging (s : State) : Bool :=
  if s.cad.walkIn.isSome then false
  else if s.walking then s.fld 0x400010 5 0 == 0 && s.nmod == 64
  else s.stat 59 && s.stat 62

/-- Do its own contributions go out on port B as well (R319)? -/
def State.bothPorts (s : State) : Bool := if s.walking then s.fld 0x400010 5 0 == 0 else s.stat 60

/-- The Ridge ports in the tick that begins with edge e (R319-R321, R325, R331). -/
def State.ridgeTick (s : State) (e : Edge) : State :=
  let t := s.tally
  let q := t % 256 / 8
  let u := if s.walking then 4 else 8
  let lost := decide (18 ≤ q) && decide (q ≤ 23) && t % 8 == 4 && natBit e.a.toNat 0 && !natBit s.cad.own 0
  let s := { s with cad := { s.cad with out := t % 256 != 144 && (s.cad.out || lost) } }
  let own := if s.walking then s.walkDrive t
    else if !s.cad.walked then 0
    else if t % 8 = 0 then s.ridgeDrive (t / 256) q
    else s.cad.own
  let seen := if t % u = 1 then (e.a.toNat, e.b.toNat) else s.cad.seen
  let fwd := s.bridging && t % u != 0
  { s with cad := { s.cad with
      own := own, seen := seen,
      ridgeA := nor own (if fwd then seen.2 else 0),
      ridgeB := nor (if s.bothPorts then own else 0) (if fwd then seen.1 else 0) } }

/-- LOCK (R338): CADENCE has met R310 for 1 ms, 25 000 ticks. -/
def State.lockTick (s : State) (e : Edge) : State :=
  let n := if e.cadence then min 25000 (s.cad.lockRun + 1) else 0
  let s := { s with cad := { s.cad with lockRun := n } }
  if n = 25000 then s.setStat 63 true else s

/-- A DCY written while ALIGNED = 0 is that of the first tick of the next Ridge frame; with it the module is aligned, if its
tally has been read anew (R316, R338). Frames start at tally 16 384, whose DCY is 0. -/
def State.dcyTick (s : State) : State :=
  match s.cad.dcyNext with
  | none => s
  | some v =>
      if s.tally % 256 ≠ 0 || decide (s.tally < 16384) then s
      else
        let ok := s.stat 63 && s.stat 61 && s.cad.tallied
        let s := { s with dcy := if s.tally = 16384 then 0 else v, cad := { s.cad with dcyNext := none } }
        if ok then ((s.setStat 62 true).setReady 0x430010 60 true).lockVotes else s

/-- The start of a tick: the tally and DCY, what starts with tally 16 384 (R312, R316, R330) or with a frame (R316), the
Ridge ports, refresh regimes (R252), and messages (R317). The Ridge lines stay undriven until their release (R413). -/
def State.startTick (s : State) (e : Edge) : State :=
  let t := s.nextTally
  let walk : Option Nat := match s.cad.walkIn with
    | some 1 => none
    | some (n + 1) => some n
    | x => x
  let s := { s with tally := t, dcy := s.dcy + s.tickLen, cad := { s.cad with walkIn := walk } }
  let s := if t = 16384 then
      let s := { s with dcy := 0 }
      if s.topoSolo && natBit s.boot.released 0 then s.lockVotes.setReady 0x430010 60 true else s
    else s
  let s := (s.lockTick e).dcyTick
  let n := max 1 (cyclesOf s.ncur s.depthNow t)
  let s := { s with tickLen := n, left := n - 1, ticks := (t, s.now, n) :: s.ticks.take 15 }
  let s := if t % 256 = 0 then
      { s with cad := { s.cad with aborts := s.cad.aborts.filter (fun a => decide (t / 256 ≤ a.frame)) } } else s
  let s := if s.topoSolo || !natBit s.boot.outputs 7 then s else s.ridgeTick e
  ((List.range 8).foldl (fun (s : State) m => s.regimeTick m) s).stampHub

/-- The kernels of a core that have ended are charged to their partitions, up to the given number (R371): their running
cycles are added to ACCT and taken from DEF. -/
def State.chargeKernels (s : State) (key n : Nat) : State :=
  let c := s.coreAt key
  (c.kernels.take n).foldl (fun (s : State) x =>
    let d := toSigned 64 (s.reg (partOff x.1 3)).toNat - (x.2 : Int)
    (s.setReg (partOff x.1 2) (s.reg (partOff x.1 2) + BitVec.ofNat 64 x.2)).setReg (partOff x.1 3)
      (BitVec.ofInt 64 (max (minSigned 64) d))) (s.setCoreAt key { c with kernels := c.kernels.drop n })

/-- Every kernel that has ended is charged. -/
def State.chargeAll (s : State) : State :=
  (s.cores.map (fun e => e.1)).foldl (fun (s : State) key => s.chargeKernels key (s.coreAt key).kernels.length) s

/-- The rest of the tick passes, and the next one starts with edge e. -/
def State.tick (s : State) (e : Edge) : State :=
  let s := s.passRest.leaveCycle.chargeAll
  (({ s with now := s.now + 1 } : State).startTick e).enterCycle

end Sys2Proof.Machine
end

