-- ==== Sys2Proof/Machine/Bake.lean ====
section
/-! DEFINITION. Command-port messages (R29-R31, R174, R177, R181, R202, R317), bundles (R169, R185) and proof points
(R218): the commands LAUNCH, PATCH, ABORT, QUIESCE, MESSAGE_DELIVERY, BUNDLE_ISSUE and PROOF_POINT_RESUME. -/
namespace Sys2Proof.Machine

/-- What a command answers. -/
abbrev Res := Host.Outcome State Fault Refusal

/-- A command to a logical core: it has its effect on the physical core that carries it; where no core exists it has none
(DESIGN CHOICE, log 60). -/
def onCore (u : CoreId) (s : State) (f : Nat → State) : Res :=
  .next (match s.key u with
    | some key => f key
    | none => s)

/-- A command on a number of things: one that names none of them has no effect (DESIGN CHOICE, log 60). -/
def onIndex (i n : Nat) (s t : State) : Res := .next (if i < n then t else s)

/-- A command of one unit of a core issues in the running cycle in progress, or in the next one where the unit has already
issued in this; a stalled core issues nothing. -/
def State.issue (s : State) (key : Nat) (used : Core → Nat) (f : State → Nat → State) : State :=
  let busy (t : State) : Bool := used (t.coreAt key) == (t.coreAt key).rc t.now + 1
  let t := if busy s then s.passCycle else s
  if (t.coreAt key).stall.isSome || busy t then s else f t ((t.coreAt key).rc t.now)

/-! ### Messages at one core -/

/-- HUB.GERR.LAUNCHDENY set. -/
def State.launchDeny (s : State) : State := s.setFld 0x138 1 1 1

/-- Are the die and the cluster of a core ready (R419)? -/
def State.coreReady (s : State) (u : CoreId) : Bool :=
  s.fld 0x430010 (49 + u.die) (49 + u.die) == 1 &&
    s.fld 0x430018 (12 * u.die + u.cluster) (12 * u.die + u.cluster) == 1

/-- May a LAUNCH of the partition address the unit (R29, R30)? -/
def State.launchOk (s : State) (m : LaunchMsg) : Bool :=
  match groupOf m.unit with
  | some g => natBit (s.gdPmask g) m.part
  | none => false

/-- A LAUNCH reaches a core with a member chain: it enters the FIFO unless the core is not ready (R419), the group waits for
the repair of a unit (R36, R40, R393), or the core has another owner (R441). -/
def State.launchAt (s : State) (key : Nat) (u : CoreId) (m : LaunchMsg) (chain : List Nat) : State :=
  let c := s.coreAt key
  if !s.coreReady u || s.launchHeld ((groupOf m.unit).getD 0) then s
  else if Machine.fld (c.reg 0x298) 3 0 ≠ m.part then s.noteHub 0x3C m.part 1
  else s.atCore key (fun c => c.enqueue s.gdGen (c.rc s.now) (.launch m (p63Of chain)))

/-- A PATCH reaches a core. -/
def State.patchAt (s : State) (key : Nat) (m : PatchMsg) : State :=
  s.atCore key (fun c => c.enqueue s.gdGen (c.rc s.now) (.patch m))

/-- A QUIESCE reaches a core. -/
def State.quiesceAt (s : State) (key : Nat) (unit : UnitId) : State := s.atCore key (fun c => c.quiesce unit)

/-- A message is for a core if its unit reaches the core; one that addresses no unit is counted (R22). -/
def State.ifReached (s : State) (u : CoreId) (unit : UnitId) (f : List Nat → State) : State :=
  if !s.addresses unit then s.noteHub 0x30 0 1
  else match s.chainTo u 6 unit with
    | some chain => f chain
    | none => s

/-- LAUNCH (R174). -/
def execLaunch (u : CoreId) (m : LaunchMsg) (s : State) : Res :=
  onCore u s (fun key =>
    if s.addresses m.unit && !s.launchOk m then s.launchDeny
    else s.ifReached u m.unit (fun chain => s.launchAt key u m chain))

/-- PATCH (R29, R181). -/
def execPatch (u : CoreId) (m : PatchMsg) (s : State) : Res :=
  onCore u s (fun key => s.ifReached u m.unit (fun _ => s.patchAt key m))

/-- ABORT (R29, R202). -/
def execAbort (u : CoreId) (unit : UnitId) (s : State) : Res :=
  onCore u s (fun key => s.ifReached u unit (fun _ => s.abortAt key (some u) unit none))

/-- QUIESCE (R29, R177). -/
def execQuiesce (u : CoreId) (unit : UnitId) (s : State) : Res :=
  onCore u s (fun key => s.ifReached u unit (fun _ => s.quiesceAt key unit))

/-! ### Messages at the hub (R317) -/

/-- The unit that a message addresses. -/
def portUnit (m : PortMsg) : UnitId :=
  match m with
  | .launch l => l.unit
  | .patch p => p.unit
  | .abort u => u
  | .quiesce u => u

/-- A launch whose group still runs an earlier bake waits, and is counted (R365). -/
def State.noteOverrun (s : State) (m : PortMsg) : State :=
  match m with
  | .launch l => (match groupOf l.unit with
      | some g => if s.groupBusy g then s.noteHub 0x34 l.part 1 else s
      | none => s)
  | _ => s

/-- A message enters the FIFO of every core that it reaches. -/
def State.deliverMsg (s : State) (m : PortMsg) : State :=
  let denied := match m with
    | .launch l => !s.launchOk l
    | _ => false
  if !s.addresses (portUnit m) then s.noteHub 0x30 0 1
  else if denied then s.launchDeny
  else (s.reached (portUnit m)).foldl (fun (s : State) r => match s.key r.1 with
    | some key => (match m with
        | .launch l => s.launchAt key r.1 l r.2
        | .patch p => s.patchAt key p
        | .abort u => s.abortAt key (some r.1) u none
        | .quiesce u => s.quiesceAt key u)
    | none => s) s

/-- The partitions that a late message names: its own, or those of the addressed group. -/
def State.lateParts (s : State) (m : PortMsg) : Nat :=
  match m with
  | .launch l => 2 ^ l.part
  | m => match portGroup m with
    | some g => s.gdPmask g
    | none => 0

/-- A message reaches the hub: without a delivery tally it is delivered; late, it is discarded, counted and raises a
watchdog fault, and its group is aborted; else it waits for its tally (R317). A message of an aborted group is discarded
(R384). Without cadence lock no delivery tally is accepted (R419). -/
def State.hubReceive (s : State) (m : HubMsg) : State :=
  match m.tally with
  | none => s.deliverMsg m.body
  | some t =>
      if t ≤ s.tally + 2 || decide (t < 16384) then
        let f : FaultEvent := { cls := 3, unit := portUnit m.body, parts := s.lateParts m.body, capture := none }
        (((s.setFld 0x400010 55 55 1).noteHub 0x33 0 1).detect f).voidLaunch m.body
      else if s.fld 0x430010 60 60 = 0 then s
      else if s.suspended m then s.voidLaunch m.body
      else { s with hubQ := s.hubQ ++ [⟨m, none⟩] }

/-- The message that enters next: in order of delivery tally, then of sequence number. -/
def nextHub (l : List HubWait) : Option HubWait :=
  l.foldl (fun (b : Option HubWait) q => match q.due, b with
    | none, _ => b
    | some _, none => some q
    | some _, some x =>
        let key (w : HubWait) : Nat × Nat := (w.msg.tally.getD 0, w.msg.seq)
        if (key q).1 < (key x).1 || ((key q).1 == (key x).1 && (key q).2 < (key x).2) then some q else some x) none

/-- The next message that is due enters the FIFOs. -/
def State.hubDeliver (s : State) : State :=
  let due (s : State) : Bool := match nextHub s.hubQ with
    | some q => decide (q.due.getD 0 ≤ s.now)
    | none => false
  match nextHub s.hubQ with
  | none => s
  | some _ => s.whenDue due (fun s => match nextHub s.hubQ with
      | some q => (({ s with hubQ := s.hubQ.erase q } : State).noteOverrun q.msg.body).deliverMsg q.msg.body
      | none => s)

/-- MESSAGE_DELIVERY (R317): a message reaches the hub, or, without one, the next waiting message is delivered. -/
def execMessageDelivery (m : Option HubMsg) (s : State) : Res :=
  .next (match m with
    | some m => s.hubReceive m
    | none => s.hubDeliver)

/-! ### Time-shared groups (R372) -/

/-- A bake of partition p ready for group g: a valid one-shot launch-table entry that no delivery tally has been given
(log 20). -/
def State.readyEntry (s : State) (g p : Nat) : Option Nat :=
  (List.range 256).find? (fun e => s.ltV e && s.fld (ltOff e 0) 62 62 == 0 && s.ltGroup e == g && s.ltPart e == p &&
    (s.reg (ltOff e 1)).toNat == 0)

/-- The partition with the largest deficit of a list; on a tie, the first. -/
def State.largestDef (s : State) (l : List Nat) : Option Nat :=
  let d (p : Nat) : Int := toSigned 64 (s.reg (partOff p 3)).toNat
  l.foldl (fun (b : Option Nat) p => match b with
    | none => some p
    | some x => if d x < d p then some p else b) none

/-- A time-shared group, one that several partitions may launch on, reaches a kernel boundary on a core: of the
partitions with RUN = 1 and a bake that goes on or is ready the one with the largest deficit runs; another's bake is
launched through its entry at the first tally that R365 still serves, after a QUIESCE of a bake that would go on. With
MC4 and MC5 failed nothing is scheduled (R421). -/
def State.schedule (s : State) (key : Nat) : State :=
  let c := s.coreAt key
  let g := c.seq.group
  let mcs (i : Nat) : Bool := s.fld (0x430200 + 0x10 * i) 61 59 == 4
  if !c.seq.run || decide (popCount (s.gdPmask g) 16 < 2) || (mcs 4 && mcs 5) then s
  else
    let goes := match c.seq.next with
      | some k => c.ktV k && !c.seq.quiesce
      | none => false
    let cands := (List.range 16).filter (fun p => s.fld (partOff p 0) 62 62 == 1 &&
      ((s.readyEntry g p).isSome || (goes && p == c.seq.part)))
    match s.largestDef cands with
    | none => s
    | some p =>
        if goes && p == c.seq.part then s
        else match s.readyEntry g p with
          | some e =>
              let s := s.setReg (ltOff e 1) (BitVec.ofNat 64 (s.tally + 9))
              if goes then s.deliverMsg (.quiesce (UnitForm.toId (.group g))) else s
          | none => s

/-! ### Bundles (R169, R185, R218) -/

/-- The bundle's commands issue in running cycle rc, its WAIT or BARRIER.D done already; those that SKIP covers issue as
no-ops (R185). -/
def State.commitBundle (s : State) (key : Nat) (u : CoreId) (rc : Nat) (b : Bundle) : State :=
  if 0 < (s.coreAt key).seq.skip then s.atCore key (fun c => (c.advance rc s.cycle b).noopBundle rc b)
  else
    let s := s.atCore key (fun c => (c.advance rc s.cycle b).issueMxVx rc b)
    let s := match b.sx with
      | some x => s.sxGo key u rc x
      | none => s
    let s := match b.qx with
      | some q => if q.waits then s else (s.qx key u rc q).2
      | none => s
    match b.qx with
    | some (.endT _ _ _) => s.schedule key
    | _ => s

/-- The next bundle issues in running cycle rc, or the core stalls at the proof points of the cycle, the bundle held. -/
def State.issueBundle (s : State) (key : Nat) (u : CoreId) (rc : Nat) : State :=
  let b := (s.coreAt key).bundle
  let p := s.proofPoints key u (some b)
  if (p.2.causes key p.1).isEmpty then p.2.commitBundle key u rc b else p.2.stallCore key p.1

/-- A bundle that is due issues ahead of what later ports and units do in the cycle (R145); its BUNDLE_ISSUE then finds it
issued (log 7). -/
def State.preIssue (s : State) (key : Nat) (u : CoreId) : State :=
  let c := s.coreAt key
  if c.stall.isNone && (c.dueBundle (c.rc s.now)).isSome then
    (s.issueBundle key u (c.rc s.now)).atCore key (fun c => { c with seq := { c.seq with pre := c.stall.isNone } })
  else s

/-- What a later unit does in the cycle, after the bundle that is due, unless the core stalls at it. -/
def State.ahead (s : State) (key : Nat) (u : CoreId) (f : State → State) : State :=
  let t := s.preIssue key u
  if (t.coreAt key).stall.isSome then t else f t

/-- BUNDLE_ISSUE (R169). -/
def execBundleIssue (u : CoreId) (s : State) : Res :=
  onCore u s (fun key =>
    let c := s.coreAt key
    if c.seq.pre then s.setCoreAt key { c with seq := { c.seq with pre := false } }
    else if !c.hasBundle then s
    else s.whenCore key (fun s => ((s.coreAt key).dueBundle ((s.coreAt key).rc s.now)).isSome)
      (fun s => s.issueBundle key u ((s.coreAt key).rc s.now)))

/-- The stall ends and the whole running cycle is performed: a bundle that was held, and an operation to emit. -/
def State.resume (s : State) (key : Nat) (u : CoreId) : State :=
  match (s.coreAt key).stall with
  | none => s
  | some st =>
      let rc := (s.coreAt key).rc s.now
      let s := s.atCore key (fun c =>
        let c := { c with stall := none }
        if st.fresh then c else c.trace s.cycle 3 2 0)
      let s := if st.held then s.commitBundle key u rc (s.coreAt key).bundle else s
      if st.emit then
        match s.mayEmit key with
        | some x => s.emit key u rc x (s.coreAt key).heldTag
        | none => s
      else s

/-- PROOF_POINT_RESUME (R218): in the first die cycle in which the conditions of all proof points hold together. -/
def execProofPointResume (u : CoreId) (s : State) : Res :=
  onCore u s (fun key =>
    if (s.coreAt key).stall.isNone then s
    else s.whenDue (fun s => s.mayResume key) (fun s => s.resume key u))

end Sys2Proof.Machine
end

