-- ==== Sys2Proof/Machine/Stream.lean ====
section
/-! DEFINITION. The commands of the stream engine, its tags and its memory (spec/05, spec/08): SX_GO, the emission and
arrival of operations, signals, tags, EXT-U, DRAM slots, the refresh regime and the loading of slot tables. -/
namespace Sys2Proof.Machine

/-- SX_GO (R196). -/
def execSxGo (u : CoreId) (c : SxCmd) (s : State) : Res :=
  onCore u s (fun key => s.issue key Core.sxAt (fun s rc => s.sxGo key u rc c))

/-! ### Emission (R241, R255-R258) -/

/-- The next operation of the transfer is emitted; without its elements or its tag the core stalls (R216), except in
forerunner mode, where a tag is waited for without a stall (R258). -/
def State.tryEmit (s : State) (key : Nat) (u : CoreId) (x : Xfer) : State :=
  let c := s.coreAt key
  let rc := c.rc s.now
  let lacks := (s.lacksTag key u).isSome
  let t := s.takeTag u.die x.part
  let s := if lacks && s.tagFree u.die x.part then t.2.atCore key (fun c => { c with heldTag := some t.1 }) else s
  let open_ := (s.lacksTag key u).isSome
  let ns := s.emitNeeds key x
  if open_ && c.forerunner then s
  else if c.needsMet ns && !open_ then s.emit key u rc x (s.coreAt key).heldTag
  else s.stallCore key { emptyStall with queues := ns, tag := open_, emit := true }

/-- SX_OPERATION_EMIT (R241). -/
def execSxOperationEmit (u : CoreId) (s : State) : Res :=
  onCore u s (fun key =>
    if (s.coreAt key).xfers.isEmpty then s
    else s.whenCore key (fun s => (s.mayEmit key).isSome) (fun s => s.ahead key u (fun s => match s.mayEmit key with
      | some x => s.tryEmit key u x
      | none => s)))

/-! ### Arrival, completion and signals (R243-R245, R255, R271) -/

/-- An operation that is due acts; pushes without credits stall the issuing core first. -/
def State.arriveOp (s : State) (id : Nat) : State :=
  match s.op id with
  | none => s
  | some o =>
      let c := s.coreAt o.key
      let ns := match o.stage, o.dst with
        | .ready, .queue q => c.pushNeed q o.ends
        | _, _ => []
      if s.ownDst o.core o.dst && c.stall.isNone && (c.dueBundle (c.rc s.now)).isSome then s.ahead o.key o.core (fun s => s.opAct o)
      else if c.needsMet ns then
        (s.atCore o.key (fun c => if s.ownDst o.core o.dst && c.stall.isNone then c.beginCycle (c.rc s.now) else c)).opAct o
      else if c.stall.isSome then s
      else s.stallCore o.key { emptyStall with queues := ns }

/-- TRANSFER_DATA_ARRIVAL (R243): operation number id reads its source or takes effect. -/
def execTransferDataArrival (id : Nat) (s : State) : Res :=
  .next (match s.op id with
    | none => s
    | some o =>
        if o.stage == .source || o.stage == .ready then
          s.whenDue (fun s => match s.op id with
            | some o => s.opDue o
            | none => false) (fun s => s.arriveOp id)
        else s)

/-- TRANSFER_SIGNAL (R271): the signal of transfer number id is delivered, once it may be. -/
def execTransferSignal (id : Nat) (s : State) : Res :=
  .next (match s.sig id with
    | some g => if s.sigReady g then s.sendSig g else s
    | none => s)

/-- TAG_GRANT (R256, R257). -/
def execTagGrant (die : Nat) (s : State) : Res := onIndex die 4 s (s.grantTag die)

/-- The tag of a completed operation returns to its die's pool. -/
def State.returnTag (s : State) (id : Nat) : State :=
  match s.op id with
  | some o =>
      if o.stage == .complete then
        match o.tag with
        | some t => (s.freeTag o.core.die t).dropOp id
        | none => s.dropOp id
      else s
  | none => s

/-- TAG_RETURN (R255). -/
def execTagReturn (id : Nat) (s : State) : Res := .next (s.returnTag id)

/-! ### EXT-U (R143, R146) -/

/-- EXT_U_ACCESS (R146): the next access of the EXT-U buffer takes place at the end of the die cycle in progress, when every
other port has had its accesses, or, with a sub-bank in use, waits (log 15). -/
def execExtUAccess (u : CoreId) (s : State) : Res :=
  onCore u s (fun key =>
    let c := s.coreAt key
    s.setCoreAt key { c with extGo := min (c.extGo + 1) c.extU.length })

/-! ### DRAM (R246-R252) -/

/-- DRAM_SLOT (R250): the next slot of stack m in the tick in progress, once it has begun. -/
def execDramSlot (m : Nat) (s : State) : Res :=
  onIndex m 8 s (if 768 * (s.tally + 1) ≤ s.dramNext m then s else s.whenDue (fun s => s.slotBegun m) (fun s => s.dramSlot m))

/-- REFRESH_REGIME_SWITCH (R252): stack m reports its temperature in °C. -/
def execRefreshRegimeSwitch (m temp : Nat) (s : State) : Res := onIndex m 8 s (s.reportTemp m temp)

/-- The two tables of a stack written whole, unless they break R248: then they are refused, and the load fails. -/
def State.loadSlots (s : State) (m : Nat) (v0 v1 : List Byte) : State :=
  let n (l : List Byte) : List Nat := l.map (fun b => b.toNat)
  if slotsOk (n v0) (n v1) then
    let put (v : Nat) (l : List Byte) (s : State) : State :=
      (n l).zipIdx.foldl (fun (s : State) e => s.writeSlot m v e.2 e.1) s
    put 1 v1 (put 0 v0 s)
  else s.mailEvent

/-- SLOT_TABLE_LOAD (R248). -/
def execSlotTableLoad (m : Nat) (v0 v1 : List Byte) (s : State) : Res := onIndex m 8 s (s.loadSlots m v0 v1)

end Sys2Proof.Machine
end

