-- ==== Sys2Proof/Machine/Timing.lean ====
section
/-! DEFINITION. The commands of the tally, the Ridge, the clocks and the power cap (spec/11, spec/16): TALLY_TICK,
the walk, the phases of a frame, frequency and depth, loss and regain of alignment, and heartbeats (spec/13 R378). -/
namespace Sys2Proof.Machine

/-- The frame in progress. -/
def State.frame (s : State) : Nat := s.tally / 256

/-! ### Heartbeats (R378) -/

/-- The torus neighbours of this module. -/
def State.neighbours (s : State) : List Nat :=
  ((List.range 6).filterMap (fun c => if (bundlePorts s.topo c).1.isEmpty then none else some (neighbour s.topo s.me c))).eraseDups

/-- HEARTBEAT (R378): a SYS message to each torus neighbour, unless MC1 has failed (R421). SYS messages that no
acknowledgement has met within a frame go out again with it (R299; log 18). -/
def execHeartbeat (s : State) : Res :=
  .next (let s := s.resendSys
    if s.fld 0x430210 61 59 = 4 then s
    else s.neighbours.foldl (fun (s : State) m =>
    s.sendFlits none [{ emptyFlit with type := 7, srcmod := s.me, dstmod := m, sent := s.cycle % 2 ^ 24 }]) s)

/-- A module is lost: every group that reaches it is aborted; the bit says which Ridge class (R377). -/
def State.moduleLoss (s : State) (m bit : Nat) : State :=
  s.detect { cls := 5, unit := UnitForm.toId (.module m), parts := 0, capture := some (BitVec.ofNat 64 bit) }

/-- HEARTBEAT_LOSS (R378): neighbour j is declared lost. -/
def execHeartbeatLoss (j : Nat) (s : State) : Res :=
  onIndex j 64 s (if s.neighbours.contains j then s.moduleLoss j 6 else s)

/-! ### Cadence loss and regain (R311, R338) -/

/-- CADENCE is lost: LOSS set, LOCK, ALIGNED and the ready bits cleared, every group that reaches the module aborted. What
of R338 was done must be done anew. -/
def State.cadenceLoss (s : State) : State :=
  let s := (((s.setStat 57 true).setStat 63 false).setStat 62 false).setReady 0x430010 60 false
  ({ s with cad := { s.cad with lockRun := 0, tallied := false } } : State).diesDown.moduleLoss s.me 5

/-- CADENCE_LOSS (R311); a solo module needs no CADENCE (R312). -/
def execCadenceLoss (s : State) : Res := .next (if s.topoSolo then s else s.cadenceLoss)

/-- The number whose nibbles a list gives, least significant first. -/
def nibbleSum (l : List (BitVec 4)) : Nat := (l.zipIdx.map (fun x => x.1.toNat * 16 ^ x.2)).foldl (· + ·) 0

/-- The first of the 14 consecutive frames that carry the nibbles l in phase 1 (R325, R338), where the module takes it for frame
f0: the i-th carries nibble (f0 + i) mod 14 of its own number. A carry between two of the frames changes higher nibbles: the
nibbles read before it are those of the number sought, the others those of its successor. -/
def frameOf (f0 : Nat) (l : List (BitVec 4)) : Nat :=
  let nib (i : Nat) : Nat := (f0 + i) % 14
  let v := (l.zipIdx.map (fun x => x.1.toNat * 16 ^ nib x.2)).foldl (· + ·) 0
  let fits (f : Nat) : Bool := decide (f < 2 ^ 56) && l.zipIdx.all (fun x => (f + x.2) / 16 ^ nib x.2 % 16 == x.1.toNat)
  let low := v + 16 - ((l.zipIdx.find? (fun x => nib x.2 == 0)).map (fun x => x.2)).getD 0
  let powers := (List.range 14).map (fun m => 16 ^ (m + 1))
  let near := (0 :: powers).map (fun d => (0 :: powers ++ powers.map (fun x => x - 16)).map (fun a => low + a - 16 - d))
  ((f0 :: near.flatten).find? fits).getD v

/-- ALIGNMENT_REGAIN (R338, steps 1 and 2): CADENCE is locked; the marker nearest the predicted start of a frame was sampled where
the holdover tally had `shift` in its low byte, and 14 frames' phase 1 gave tally bits [63:8]. A module that has not taken part in a
walk, which is not repeated for it, counts as having walked (R431; DEDUCED, log 67). -/
def execAlignmentRegain (shift : Nat) (phase1 : List (BitVec 4)) (s : State) : Res :=
  .next (if s.stat 62 || s.topoSolo then s
    else
      let low := (s.tally + 256 - shift % 256) % 256
      let f0 := (s.tally - low + 128) / 256 - 13
      let s := s.setStat 63 true
      let s := if s.cad.walked then s else s.setStat 61 true
      { s with tally := 256 * (frameOf f0 phase1 + 13) + low,
               cad := { s.cad with absent := 0, mism := 0, tallied := true, walked := true } })

/-- A write of CAD.DCY: only while ALIGNED = 0, and for the first tick of the next frame (R316). -/
def State.writeDcy (s : State) (v : Word) : State :=
  if s.stat 62 then s else { s with cad := { s.cad with dcyNext := some v.toNat } }

/-- DCY_WRITE (R316). -/
def execDcyWrite (v : BitVec 64) (s : State) : Res := .next (s.writeDcy v)

/-! ### The walk (R322-R324) -/

/-- WALK_START (R322): the start pulse begins in this tick; 64 ticks after the edge that first samples it the tally is 0. Module
0 drives it on both ports from now on. It needs a locked CADENCE, and happens once until a cold reset. -/
def execWalkStart (s : State) : Res :=
  .next (if s.cad.walked || s.topoSolo then s
    else
      let drive := if s.fld 0x400010 5 0 = 0 && natBit s.boot.outputs 7 then 3 else 0
      { s.setStat 63 true with cad := { s.cad with walked := true, walkIn := some 65, ridgeA := drive, ridgeB := drive } })

/-- The walk's result (R324), and who keeps time (R319). -/
def State.endWalk (s : State) : State :=
  let n := s.nmod
  let pres := (s.reg 0x400040).toNat
  let gb := (s.reg 0x400048).toNat
  let pos := s.fld 0x400010 5 0
  let all := 2 ^ n - 1
  let ok := pres == all && (s.reg 0x400050).toNat == 0 && (gb == 0 || gb == all) && decide (pos < n)
  if ok then
    let s := (((s.setStat 61 true).setStat 62 true).setReady 0x430010 60 (s.stat 63)).lockVotes
    if pos = 0 then (s.setStat 60 true).setStat 59 (n == 64) else s
  else s

/-- WALK_SLOT (R323): the 64 sub-slot values sampled in slot m. -/
def execWalkSlot (slot : Nat) (subs : List (BitVec 4)) (s : State) : Res :=
  onIndex slot 64 s (if !s.cad.walked || s.stat 61 then s
    else
      let v0 := (subs.getD 0 0).toNat
      let dup := (slice subs 1 32).any (fun x => decide (x.toNat / 4 = 3))
      let s := if natBit v0 0 then s.setFld 0x400040 slot slot 1 else s
      let s := if natBit v0 0 && natBit v0 1 then s.setFld 0x400048 slot slot 1 else s
      let s := if dup then s.setFld 0x400050 slot slot 1 else s
      if slot = 63 then s.endWalk else s)

/-! ### The Ridge frame (R325-R329) -/

/-- What three absent markers and a tally slip lead to: the loss of CADENCE, or, while alignment is being regained, a new start
of its second step (R326, R338). -/
def State.unmarked (s : State) : State :=
  if s.stat 62 then s.cadenceLoss else { s with cad := { s.cad with tallied := false, absent := 0, mism := 0 } }

/-- RIDGE_MARKER_CHECK (R326): phases 0 and 1 of the frame as sampled. -/
def State.markerCheck (s : State) (p0 p1 : Nat) : State :=
  if s.stat 60 || s.topoSolo then s
  else if p0 = 0 then
    let s := { s with cad := { s.cad with absent := s.cad.absent + 1, mism := 0 } }
    if 3 ≤ s.cad.absent then s.unmarked else s
  else
    let s := { s with cad := { s.cad with absent := 0 } }
    if p0 = 5 && p1 == s.frame / 16 ^ (s.frame % 14) % 16 then { s with cad := { s.cad with mism := 0 } }
    else
      let s := { s with cad := { s.cad with mism := s.cad.mism + 1 } }.setStat 56 true
      if 2 ≤ s.cad.mism then s.unmarked else s

def execRidgeMarkerCheck (p0 p1 : BitVec 4) (s : State) : Res := .next (s.markerCheck p0.toNat p1.toNat)

/-- TIMEKEEPER_TAKEOVER (R321): by the alternate timekeeper, after two frames without a marker. -/
def execTimekeeperTakeover (s : State) : Res :=
  .next (
    let pos := s.fld 0x400010 5 0
    let alt := if s.nmod = 64 then 32 else 1
    if pos = alt && decide (2 ≤ s.cad.absent) && s.stat 62 then
      let s := (s.setStat 60 true).setStat 59 (s.nmod == 64)
      { s with cad := { s.cad with absent := 0 } }
    else s)

/-- The fault class that a Ridge class bit stands for (R377). -/
def classOfBit (b : Nat) : Nat :=
  match b with
  | 0 => 0
  | 1 => 2
  | 2 => 3
  | 3 => 4
  | 7 => 6
  | _ => 5

/-- What a module reads on the Ridge has its effect, unless it runs solo and reads nothing there (R312). -/
def State.onRidge (s : State) (f : State → State) : State := if s.topoSolo then s else f s

/-- RIDGE_ABORT (R327): phases 2-7 of the frame as sampled. -/
def execRidgeAbort (phases : List (BitVec 4)) (s : State) : Res :=
  .next (s.onRidge fun s =>
    let parts := nibbleSum (phases.take 4)
    let cls := nibbleSum (slice phases 4 2)
    if parts = 0 && cls == 0 then s
    else
      let s := if s.fld 0x400068 63 63 = 1 then s
        else (s.setReg 0x400068 (BitVec.ofNat 64 (2 ^ 63 + s.frame))).setReg 0x400070 (BitVec.ofNat 64 (parts * 2 ^ 8 + cls))
      let s := (List.range 8).foldl (fun (s : State) b => s.noteHub 0x3B b (if natBit cls b then 1 else 0)) s
      s.abortCopy parts s.frame (classOfBit (((List.range 8).find? (fun b => natBit cls b)).getD 0)) s.me s.tally)

/-- RIDGE_BARRIER (R328): phases 10-17 of the frame as sampled. -/
def execRidgeBarrier (phases : List (BitVec 4)) (s : State) : Res :=
  .next (s.onRidge fun s =>
    let v := nibbleSum phases
    (List.range 32).foldl (fun (s : State) b =>
      let off := 0x400100 + 8 * b
      let w := s.reg off
      if bitAt w 63 && bitAt w 62 && decide (bits w 55 0 ≤ s.frame) && !natBit v b then
        s.setReg off (Machine.setFld (Machine.setFld (Machine.setFld w 63 63 0) 61 61 1) 55 0 s.frame)
      else s) s)

/-- RIDGE_HOST_FLAGS (R329): phases 26-27 of the frame as sampled. -/
def execRidgeHostFlags (p26 p27 : BitVec 4) (s : State) : Res :=
  .next (s.onRidge fun s => s.setFld 0x400060 15 8 (p26.toNat + 16 * p27.toNat))

/-! ### Frequency (R330-R335) -/

/-- One region's registers and vote at a frame's end (R330, R333). -/
def State.voteRegion (s : State) (r : Nat) (x : RegionReport) : State :=
  let off := regionOff r
  let mon := s.reg 0x400028
  let fr := s.reg 0x400020
  let dw := decide (bits mon 47 40 < x.dmax)
  let tw := decide (bits mon 63 56 ≤ x.tj)
  let aw := decide (x.agem < bits mon 31 24)
  let ceil := s.voteCeil
  let floor := s.voteFloor
  let vote := s.fld off 63 56
  let ncur := s.ncur
  let clean := Tab.get zeroN s.cad.clean r
  let v : Nat × Nat :=
    if s.cad.droop.contains r then (min ceil (max floor (ncur - 8)), 0)
    else if dw || tw || aw then (max floor (min vote ncur - bits fr 23 20), 0)
    else if clean + 1 ≥ bits fr 15 0 then (min ceil (vote + bits fr 19 16), 0)
    else (min ceil vote, clean + 1)
  let w := Machine.setFld (s.reg off) 63 29
    (v.1 % 256 * 2 ^ 27 + x.tj % 256 * 2 ^ 19 + x.dmax % 256 * 2 ^ 11 + x.agem % 256 * 2 ^ 3 + dw.toNat * 4 + tw.toNat * 2 + aw.toNat)
  let s := { s.setReg off w with cad := { s.cad with clean := Tab.set zeroN s.cad.clean r v.2 } }
  if r < 52 then
    ((s.noteDie (r / 13) 0x2C (r % 13) (if v.1 < ceil then 1 else 0)).noteDie (r / 13) 0x2D (r % 13) dw.toNat).noteDie
      (r / 13) 0x2E (r % 13) tw.toNat
  else s

/-- The step to which the droop faults of the frame lower the vote, unless the module runs no faster (R333); or that of earlier
faults, which is not yet in force. -/
def State.loweredStep (s : State) : Option Nat :=
  let n := min s.voteCeil (max s.voteFloor (s.ncur - 8))
  if s.cad.droop.isEmpty then s.cad.lower else if n < s.ncur then some n else none

/-- REGION_VOTE_UPDATE (R330): what the 53 regions report at the end of the frame. A solo module takes its own vote as
the result (R331). -/
def execRegionVoteUpdate (rs : List RegionReport) (s : State) : Res :=
  .next (
    let s := (List.range 53).foldl (fun (s : State) r => s.voteRegion r (rs.getD r ⟨0, 0, 100⟩)) s
    let s := { s with cad := { s.cad with droop := [], lower := s.loweredStep } }.moduleVote
    if s.topoSolo && decide (64 ≤ s.frame) then
      let v := s.fld 0x400020 47 40
      { s.setFld 0x400020 55 48 v with cad := { s.cad with freqs := s.cad.freqs ++ [(256 * (s.frame + 2), v)] } }
    else s)

def bitsMsb (l : List Bool) : Nat := l.foldl (fun n b => 2 * n + b.toNat) 0

/-- FREQUENCY_ARBITRATION (R331): RIDGE0 and RIDGE1 in phases 18-23 as sampled. -/
def execFrequencyArbitration (r0 r1 : List Bool) (s : State) : Res :=
  .next (
    let vg := bitsMsb (r0.take 6)
    if s.topoSolo || !s.stat 62 then s
    else if r0.take 6 != r1.take 6 || decide (40 < vg) then (s.setStat 54 true).noteHub 0x3A 1 1
    else { s.setFld 0x400020 55 48 (72 - vg) with
           cad := { s.cad with freqs := s.cad.freqs ++ [(256 * (s.frame + 2), 72 - vg)] } })

/-- FREQUENCY_CHANGE (R332): the results whose edge has come take effect, and n(T) of a tick just begun is taken with
them. -/
def execFrequencyChange (s : State) : Res :=
  .next (
    let due := s.cad.freqs.filter (fun f => decide (f.1 ≤ s.tally))
    match due.getLast? with
    | none => s
    | some f =>
        let s := s.noteHub 0x3A 0 (if f.2 = s.ncur then 0 else 1)
        ({ s.setFld 0x400020 63 56 f.2 with
           cad := { s.cad with freqs := s.cad.freqs.filter (fun f => decide (s.tally < f.1)),
                               lower := s.cad.lower.filter (fun n => decide (n < f.2)) } } : State).retick)

/-! ### Spread depth (R337) -/

/-- RIDGE_DEPTH_SAMPLE (R337): phases 24 and 25 as sampled; more than one line is a mismatch. -/
def execRidgeDepthSample (p24 p25 : BitVec 4) (s : State) : Res :=
  .next (s.onRidge fun s =>
    if 1 < popCount p24.toNat 4 + popCount p25.toNat 1 then (s.setStat 53 true).noteHub 0x3A 2 1 else s)

/-- A depth commit is armed: refused with a reserved code or a wrong tally, late if that has passed. -/
def State.armDepth (s : State) : State :=
    let k := s.fld 0x400030 60 58
    let at_ := (s.reg 0x400038).toNat
    if 5 ≤ k || at_ % 768 != 0 then s.setFld 0x400030 55 55 1
    else if at_ ≤ s.tally then
      { (s.setFld 0x400030 56 56 1).setFld 0x400030 57 57 0 with cad := { s.cad with depth := none } }
    else { s.setFld 0x400030 57 57 1 with cad := { s.cad with depth := some (k, at_) } }

/-- DEPTH_COMMIT_ARM (R337). -/
def execDepthCommitArm (s : State) : Res := .next s.armDepth

/-- DEPTH_COMMIT (R337): at its tally. -/
def execDepthCommit (s : State) : Res :=
  .next (match s.cad.depth with
    | some (k, at_) =>
        if at_ ≤ s.tally then
          ({ (s.setFld 0x400030 63 61 k).setFld 0x400030 57 57 0 with cad := { s.cad with depth := none } } : State).retick
        else s
    | none => s)

/-! ### Droop and heat (R333, R334) -/

/-- DROOP_FAULT (R333): region r. -/
def execDroopFault (r : Nat) (s : State) : Res :=
  onIndex r 53 s (
    let s := s.setFld (regionOff r) 28 28 1
    let s := { s with cad := { s.cad with droop := s.cad.droop ++ [r] } }
    s.detect { cls := 4, unit := UnitForm.toId (.module s.me), parts := 0, capture := none })

/-- THERMAL_TRIP (R334): region r; THERMTRIP_N falls, and the compute dies' clocks stop. -/
def execThermalTrip (r : Nat) (s : State) : Res :=
  onIndex r 53 s (
    let s := ((s.setFld (regionOff r) 27 27 1).moduleLoss s.me 4).diesDown
    { s with thermTrip := true, cad := { s.cad with stopped := true } })

/-! ### The power cap (R457, R458) -/

/-- A write of CAD.PCAP that R458 ignores: CAP or BRKCAP outside 1 200-2 400, BRKN outside 32-72, AVG or PHOLD 0. -/
def pcapBad (v : Word) : Bool :=
  let cap (n : Nat) : Bool := decide (n < 1200) || decide (2400 < n)
  cap (bits v 63 52) || cap (bits v 51 40) || decide (bits v 39 32 < 32) || decide (72 < bits v 39 32) ||
    bits v 23 16 == 0 || bits v 15 8 == 0

/-- The end of a frame at the cap controller (R458): mean input power and voltage, and PWRBRK_N (true: low). -/
def State.capFrame (s : State) (pin vin : Nat) (brk : Bool) : State :=
  let s := match s.cad.pcapNext with
    | some v => { s.setFld 0x400080 63 8 (bits v 63 8) with cad := { s.cad with pcapNext := none } }
    | none => s
  let w := s.reg 0x400080
  let was := s.fld 0x400088 14 14 == 1
  let capnow := if brk then min (bits w 63 52) (bits w 51 40) else bits w 63 52
  let pv := if brk && !was then min (bits w 7 0) (bits w 39 32) else bits w 7 0
  let low := if capnow = 2400 then s.voteFloor else 32
  let hist := (pin :: s.cad.pins).take 255
  let ps := hist.take (bits w 23 16)
  let sum := ps.foldl (· + ·) 0
  let r : Nat × Nat × Bool :=
    if capnow * ps.length < sum then (max low (min pv s.ncur - 1), 0, true)
    else if sum < (capnow - 4 * bits w 31 24) * ps.length then
      if bits w 15 8 ≤ s.cad.pclean + 1 then (min 72 (pv + 1), 0, false) else (pv, s.cad.pclean + 1, false)
    else (pv, 0, false)
  let hit := r.2.2 || s.fld 0x400088 15 15 == 1
  let s1 := { s.setFld 0x400080 7 0 (max low r.1) with cad := { s.cad with pins := hist, pclean := r.2.1 } }
  (s1.setReg 0x400088 (BitVec.ofNat 64 (pin % 2 ^ 16 * 2 ^ 48 + vin % 2 ^ 16 * 2 ^ 32 +
    max (s.fld 0x400088 31 16) (pin % 2 ^ 16) * 2 ^ 16 + hit.toNat * 2 ^ 15 + brk.toNat * 2 ^ 14))).moduleVote

/-- POWER_CAP_UPDATE (R458). -/
def execPowerCapUpdate (pin vin : Nat) (brk : Bool) (s : State) : Res := .next (s.capFrame pin vin brk)

/-- A write of CAD.PCAP: it takes effect at the next frame end, or is ignored whole. -/
def State.writePcap (s : State) (v : Word) : State :=
  if pcapBad v then s else { s with cad := { s.cad with pcapNext := some v } }

/-- POWER_CAP_WRITE (R458). -/
def execPowerCapWrite (v : BitVec 64) (s : State) : Res := .next (s.writePcap v)

end Sys2Proof.Machine
end

