-- ==== Sys2Proof/Machine/Access.lean ====
section
/-! DEFINITION. Storage as the hub, firmware and the host reach it (spec/12 R342-R345): the control space as it reads
(R12-R14), stream records (R357), and bytes at global addresses. -/
namespace Sys2Proof.Machine

/-! ### Stream records (R357) -/

def State.stream (s : State) (i : Nat) : StreamRec := Tab.get StreamRec.dflt s.gate.streams i
def State.setStream (s : State) (i : Nat) (r : StreamRec) : State :=
  { s with gate := { s.gate with streams := Tab.set StreamRec.dflt s.gate.streams i r } }

/-- A record's 128 bytes. -/
def StreamRec.bytes (r : StreamRec) : List Byte :=
  bytesLE r.key.toNat 16 ++ ([r.ctl, r.slot, r.deadline, r.inloc, r.resloc, r.audseq, r.reqid, r.resaddr].map
    (fun w => bytesLE w.toNat 8)).flatten ++ padTo 0 48 r.idig

/-- The record that 128 bytes spell. -/
def StreamRec.ofBytes (bs : List Byte) : StreamRec :=
  let w (i : Nat) : Word := BitVec.ofNat 64 (natLE (slice bs i 8))
  { key := BitVec.ofNat 128 (natLE (bs.take 16)), ctl := w 0x10, slot := w 0x18, deadline := w 0x20, inloc := w 0x28,
    resloc := w 0x30, audseq := w 0x38, reqid := w 0x40, resaddr := w 0x48, idig := slice bs 0x50 48 }

/-! ### The control space as it reads (R343) -/

/-- The core that a CORE block belongs to, with the offset in the block. -/
def coreBlock (off : Nat) : Option (CoreId × Nat) :=
  if 0x1200000 ≤ off ∧ off < 0x1800000 then
    let r := off - 0x1200000
    let q := r % 0x180000
    some (⟨r / 0x180000, q / 0x20000, q / 0x2000 % 16⟩, q % 0x2000)
  else none

/-- The cluster of a CL block, with the offset in the block. -/
def clBlock (off : Nat) : Option (Nat × Nat × Nat) :=
  if 0x1000000 ≤ off ∧ off < 0x1100000 then
    let r := off - 0x1000000
    if r % 0x40000 / 0x4000 < 12 then some (r / 0x40000, r % 0x40000 / 0x4000, r % 0x4000) else none
  else none

/-- Urgent credits of a partition in use (R353). -/
def State.urgentOut (s : State) (p : Nat) : Nat := (s.gate.fetched.filter (fun f => f.part == p && f.ring == 0)).length
def State.urgentFree (s : State) (p : Nat) : Nat := s.fld (partOff p 0) 47 40 - s.urgentOut p

/-- A module register as it reads, with what hardware maintains computed: BUSY (R24), CREDIT (R348), the tally and DCY
(R313, R316), tags (R256) and sync objects (R266). -/
def State.readModule (s : State) (d : RegDesc) (ix : List Nat) (off : Nat) : Word :=
  match d.base, ix with
  | 0x100008, [i] => Machine.setFld (d.read (s.reg off)) 0 0 (s.groupBusy i).toNat
  | 0x80200, [p] => BitVec.ofNat 64 (s.urgentFree p)
  | 0x400000, _ => BitVec.ofNat 64 s.tally
  | 0x400008, _ => if s.tally < 16384 then Config.free s.freeCtr else BitVec.ofNat 64 s.dcy
  | 0x803080, [i] => s.tagStat i
  | 0x900000, [i, k] => BitVec.ofNat 64 (s.obj i k).val
  | _, _ => d.read (s.reg off)

/-- A register of the control space, by the offset at which it starts. -/
def State.readReg (s : State) (off : Nat) : Word :=
  match coreBlock off, clBlock off with
  | some (u, o), _ => (match s.key u with
      | some key => (s.coreAt key).readReg ((s.coreAt key).rc s.now) s.now o
      | none => 0)
  | none, some (d, k, o) => s.readCl d k o
  | none, none => (match findReg moduleRegs off with
      | some (d, ix) => s.readModule d ix off
      | none => 0)

/-- Where the register that holds a byte of the control space starts: in a CORE block, or elsewhere. -/
def ctlStart (off : Nat) : Option (RegDesc × Nat) :=
  match coreBlock off with
  | some (_, o) => (regStart coreRegs o).map (fun x => (x.1, off - o + x.2))
  | none => regStart moduleRegs off

/-- One byte of the control space: stream records, registers, and zero elsewhere (R343). -/
def State.ctlByte (s : State) (off : Nat) : Byte :=
  if 0x2000000 ≤ off ∧ off < 0x4000000 then
    ((s.stream ((off - 0x2000000) / 128)).bytes).getD (off % 128) 0
  else match ctlStart off with
    | some (_, st) => (bytesLE (s.readReg st).toNat 8).getD (off - st) 0
    | none => 0

/-- Bytes of the control space as one access reads them (R14): a 32-bit read of the lower half of a register latches the upper
half, and a 32-bit read of the upper half returns what was latched. -/
def State.ctlRead (s : State) (off n : Nat) : List Byte × State :=
  let plain := ((List.range n).map (fun i => s.ctlByte (off + i)), s)
  if n ≠ 4 || (decide (0x2000000 ≤ off) && decide (off < 0x4000000)) then plain
  else match ctlStart off with
    | some (d, st) =>
        if d.bytes < 8 then plain
        else if st = off then
          let w := s.readReg st
          (bytesLE (w.toNat % 2 ^ 32) 4, { s with latched := Tab.set zeroW s.latched st (BitVec.ofNat 64 (bits w 63 32)) })
        else if st + 4 = off then (bytesLE (Tab.w s.latched st).toNat 4, s)
        else plain
    | none => plain

/-! ### Bytes at global addresses (R234, R250) -/

/-- The write that a firmware access sees over a stored byte: of those that wait in the controller's pool queue and have reached
it, the one that came last (R250). -/
def State.poolWrite (s : State) (m b : Nat) : Option DramReq :=
  ((Tab.get (fun _ => []) (s.dramOf m).queues 16).filter (fun r => r.write.isSome && decide (r.ready ≤ s.now) &&
    r.line == b / 64 && decide (r.off ≤ b % 64) && decide (b % 64 < r.off + r.len))).foldl
      (fun (best : Option DramReq) r => match best with
        | some x => if x.ready ≤ r.ready then some r else best
        | none => some r) none

/-- A byte of DRAM as a firmware access reads it: the pool queue serves such accesses in their order (R250); a read is answered at
once with what the writes before it will have stored (log 65). -/
def State.poolByte (s : State) (m b : Nat) : Byte :=
  match s.poolWrite m b with
  | some r => (r.write.getD []).getD (b % 64 - r.off) 0
  | none => Memory.byte (s.dramOf m).mem b

/-- One byte at a global address, for the hub and the host; none on another module, which this one cannot see. A stack that is not
ready reads as zero (R419). -/
def State.gaByte (s : State) (a : Nat) : Option Byte :=
  let w : Word := BitVec.ofNat 64 a
  match s.placeAt w with
  | .away _ _ _ => none
  | .dram m b _ => some (if s.memReady m then s.poolByte m b else 0)
  | .spad u b _ => some (((s.core u).peekBytes b 1).getD 0 0)
  | .shut 3 off => some (((s.stream (off / 128)).bytes).getD (off % 128) 0)
  | .shut _ off => some (s.ctlByte off)
  | .nowhere _ _ => some 0

/-- The checks that a read of n bytes meets (R254, R419): the lines' ECC, against a group and a partition, or the fault of a stack
that is not ready. -/
def State.gaCheck (s : State) (group part a n : Nat) : State :=
  match s.placeAt (BitVec.ofNat 64 a) with
  | .dram m b _ =>
      if !s.memReady m then s.memFault group part
      else (linesOf b n).foldl (fun (s : State) l => (s.dramRead m l.1 l.2.1 l.2.2.1 group part).2) s
  | .spad u b _ => (match s.key u with
      | some key => s.atCore key (fun c => (List.range (ceilDiv (b % 16 + n) 16)).foldl (fun (c : Core) i => c.eccRead (b / 16 + i)) c)
      | none => s)
  | _ => s

/-- n bytes from a global address, read for a group and a partition: what another module holds is a free value. -/
def State.gaBytes (s : State) (group part a n : Nat) : List Byte × State :=
  let bs := (List.range n).map (fun i => s.gaByte (a + i))
  let s := s.gaCheck group part a n
  if bs.all Option.isSome then (bs.map (fun b => b.getD 0), s)
  else
    let free (i : Nat) : Byte := BitVec.ofNat 8 (Config.free (s.freeCtr + i)).toNat
    (bs.zipIdx.map (fun x => x.1.getD (free x.2)), { s with freeCtr := s.freeCtr + n })

/-- Firmware's write to DRAM at a global address of this module: it enters the pool queue of the stack, line by line (R250).
A stack that is not ready takes none and raises a memory fault (R419); elsewhere such a write has no effect here. -/
def State.dramPut (s : State) (a : Nat) (bs : List Byte) : State :=
  match s.placeAt (BitVec.ofNat 64 a) with
  | .dram m b _ =>
      if !s.memReady m then s.memFault 0 0
      else s.enqueueDram m 16 s.me ((linesOf b bs.length).map (fun l =>
        { ready := s.now, line := l.1, off := l.2.1, len := l.2.2.1, write := some (slice bs l.2.2.2 l.2.2.1),
          for_ := .host, group := 0, gen := 0, part := 0 }))
  | _ => s

end Sys2Proof.Machine
end

