-- ==== Sys2Proof/Machine/Crypto.lean ====
section
/-! DEFINITION. The cryptographic functions that the spec names by their standards (log 16): SHA-384 (FIPS 180-4),
CRC-32C (R412), AES-256 in counter mode (R408) and AES key wrap (R411, RFC 3394), and ECDSA over P-384 (R408, R439). -/
namespace Sys2Proof.Machine

/-! ### SHA-384 -/

/-- The largest r below 2^n with f r at most m, for a rising f: its bits from the highest down. -/
def rootBits (f : Nat → Nat) (m : Nat) : Nat → Nat → Nat
  | 0, r => r
  | n + 1, r => rootBits f m n (if f (r + 2 ^ n) ≤ m then r + 2 ^ n else r)

/-- The first primes, up to 409: the 80 that FIPS 180-4 draws its constants from. -/
def shaPrimes : List Nat :=
  (List.range 410).filter (fun n => decide (2 ≤ n) && (List.range 21).all (fun d => decide (d < 2) || decide (n ≤ d) || n % d != 0))

/-- The round constants: the first 64 bits of the fractional parts of the primes' cube roots. -/
def shaK : List Word := shaPrimes.map (fun p => BitVec.ofNat 64 (rootBits (fun r => r * r * r) (p * 2 ^ 192) 67 0))

/-- The initial hash value of SHA-384: the same of the square roots of the ninth to the sixteenth prime. -/
def shaIv : List Word := (slice shaPrimes 8 8).map (fun p => BitVec.ofNat 64 (rootBits (fun r => r * r) (p * 2 ^ 128) 67 0))

/-- The exclusive or of a word's rotations to the right by each of the distances. -/
def rotSum (x : Word) (dists : List Nat) : Word := (dists.map x.rotateRight).foldl (fun acc r => acc ^^^ r) 0

/-- The message schedule, newest word first: n further words. -/
def shaExpand : Nat → List Word → List Word
  | 0, l => l
  | n + 1, l =>
      let near := l.getD 1 0
      let far := l.getD 14 0
      shaExpand n ((l.getD 15 0 + (near >>> 6 ^^^ rotSum near [19, 61]) + l.getD 6 0 + (far >>> 7 ^^^ rotSum far [1, 8])) :: l)

/-- One round on the eight working variables, listed from the first: they move on by one place, the new first is formed of
the last four and the first three, and the fourth takes the part of the last four as it moves. -/
def shaRound (v : List Word) (kw : Word × Word) : List Word :=
  let x (i : Nat) : Word := v.getD i 0
  let lower := x 7 + (kw.1 + kw.2) + (x 6 ^^^ (x 4 &&& (x 5 ^^^ x 6))) + rotSum (x 4) [14, 18, 41]
  let upper := ((x 0 &&& (x 1 ||| x 2)) ||| (x 1 &&& x 2)) + rotSum (x 0) [28, 34, 39]
  (lower + upper) :: (v.take 3 ++ (x 3 + lower) :: (v.drop 4).take 3)

/-- One block of 128 bytes. -/
def shaBlock (h : List Word) (blk : List Byte) : List Word :=
  let w := (List.range 16).map (fun i => (BitVec.ofNat 64 (natBE (slice blk (8 * i) 8)) : Word))
  let ws := (shaExpand 64 w.reverse).reverse
  ((shaK.zip ws).foldl shaRound h).zipWith (fun a b => a + b) h

/-- SHA-384 of a byte string: 48 bytes. -/
def sha384 (m : List Byte) : List Byte :=
  let pad := (240 - (m.length + 1) % 128) % 128
  let x := m ++ [0x80] ++ List.replicate pad 0 ++ bytesBE (8 * m.length) 16
  (((chunks 128 (x.length / 128 + 1) x).foldl shaBlock shaIv).map (fun w => bytesBE w.toNat 8)).flatten.take 48

/-! ### CRC-32C (R412) -/

def crcStep : Nat → Nat → Nat
  | 0, c => c
  | n + 1, c => crcStep n (if c % 2 = 1 then nxor (c / 2) 0x82F63B78 else c / 2)

/-- CRC-32C: reflected polynomial 0x1EDC6F41, initial value and final XOR all ones. -/
def crc32c (m : List Byte) : Nat :=
  nxor (m.foldl (fun c b => crcStep 8 (nxor c b.toNat)) 0xFFFFFFFF) 0xFFFFFFFF

/-! ### AES-256 -/

/-- Multiplication in the field of AES. -/
def aesMulN : Nat → Nat → Nat → Nat
  | 0, _, _ => 0
  | n + 1, a, b =>
      let a2 := if a < 128 then 2 * a else nxor (2 * a) 0x11B
      nxor (if b % 2 = 1 then a else 0) (aesMulN n a2 (b / 2))

def aesMul (a b : Nat) : Nat := aesMulN 8 a b

/-- The inverse in the field, the 254th power; 0 of 0. -/
def aesInv (a : Nat) : Nat :=
  let a2 := aesMul a a
  let a3 := aesMul a2 a
  let a6 := aesMul a3 a3
  let a12 := aesMul a6 a6
  let a15 := aesMul a12 a3
  let a30 := aesMul a15 a15
  let a60 := aesMul a30 a30
  let a120 := aesMul a60 a60
  let a240 := aesMul a120 a120
  aesMul (aesMul a240 a12) a2

def rotl8 (a n : Nat) : Nat := a * 2 ^ n % 256 + a / 2 ^ (8 - n)

/-- The S-box and its inverse. -/
def sbox (a : Nat) : Nat :=
  let b := aesInv a
  nxor (nxor (nxor b (rotl8 b 1)) (nxor (rotl8 b 2) (rotl8 b 3))) (nxor (rotl8 b 4) 0x63)
def sboxInv (a : Nat) : Nat := aesInv (nxor (nxor (rotl8 a 1) (rotl8 a 3)) (nxor (rotl8 a 6) 0x05))

/-- The key schedule, newest word of four bytes first: n further words, the next being number i. -/
def aesExpand : Nat → Nat → List (List Nat) → List (List Nat)
  | 0, _, l => l
  | n + 1, i, l =>
      let t := l.getD 0 []
      let t := if i % 8 = 0 then
          let r := ((t.drop 1) ++ t.take 1).map sbox
          r.zipWith nxor [2 ^ (i / 8 - 1), 0, 0, 0]
        else if i % 8 = 4 then t.map sbox else t
      aesExpand n (i + 1) ((t.zipWith nxor (l.getD 7 [])) :: l)

/-- The 15 round keys of 16 bytes. -/
def aesKeys (key : List Byte) : List (List Nat) :=
  let w := chunks 4 9 (key.map (fun b => b.toNat))
  chunks 16 16 ((aesExpand 52 8 w.reverse).reverse.flatten)

/-- ShiftRows and its inverse on the 16 bytes, column by column. -/
def shiftRows (s : List Nat) : List Nat := (List.range 16).map (fun i => s.getD ((i + 4 * (i % 4)) % 16) 0)
def shiftRowsInv (s : List Nat) : List Nat := (List.range 16).map (fun i => s.getD ((i + 12 * (i % 4)) % 16) 0)

/-- A column multiplied by the circulant matrix of the coefficients. -/
def mixCol (m : List Nat) (c : List Nat) : List Nat :=
  (List.range 4).map (fun i => (List.range 4).foldl (fun x j => nxor x (aesMul (m.getD ((j + 4 - i) % 4) 0) (c.getD j 0))) 0)
def mixCols (m s : List Nat) : List Nat := ((chunks 4 5 s).map (mixCol m)).flatten

/-- The cipher on one block. -/
def aesEncrypt (key blk : List Byte) : List Byte :=
  let ks := aesKeys key
  let s0 := (blk.map (fun b => b.toNat)).zipWith nxor (ks.getD 0 [])
  let s13 := (slice ks 1 13).foldl (fun s k => (mixCols [2, 3, 1, 1] (shiftRows (s.map sbox))).zipWith nxor k) s0
  ((shiftRows (s13.map sbox)).zipWith nxor (ks.getD 14 [])).map (fun n => BitVec.ofNat 8 n)

/-- The inverse cipher on one block. -/
def aesDecrypt (key blk : List Byte) : List Byte :=
  let ks := aesKeys key
  let s0 := (shiftRowsInv ((blk.map (fun b => b.toNat)).zipWith nxor (ks.getD 14 []))).map sboxInv
  let s13 := (slice ks 1 13).reverse.foldl (fun s k =>
    (shiftRowsInv (mixCols [14, 11, 13, 9] (s.zipWith nxor k))).map sboxInv) s0
  (s13.zipWith nxor (ks.getD 0 [])).map (fun n => BitVec.ofNat 8 n)

/-- Counter mode (R408): block i is the nonce followed by i, most significant byte first. -/
def aesCtr (key nonce body : List Byte) : List Byte :=
  ((chunks 16 (body.length / 16 + 1) body).zipIdx.map (fun b =>
    b.1.zipWith (fun x y => x ^^^ y) (aesEncrypt key (nonce ++ bytesBE b.2 4)))).flatten

/-- The unwrapping of a 256-bit key (RFC 3394): the steps t = 24 down to 1; a is the integrity value, r the key. -/
def unwrapSteps (kek : List Byte) : Nat → List Byte → List (List Byte) → List Byte × List (List Byte)
  | 0, a, r => (a, r)
  | t + 1, a, r =>
      let i := t % 4
      let x := a.zipWith (fun p q => p ^^^ q) (bytesBE (t + 1) 8)
      let b := aesDecrypt kek (x ++ r.getD i [])
      unwrapSteps kek t (b.take 8) (r.set i (b.drop 8))

/-- The key that 40 wrapped bytes hold, if the integrity value is right. -/
def keyUnwrap (kek w : List Byte) : Option (List Byte) :=
  let x := unwrapSteps kek 24 (w.take 8) (chunks 8 5 (w.drop 8))
  if w.length = 40 ∧ x.1 = List.replicate 8 0xA6 then some x.2.flatten else none

/-! ### ECDSA over P-384 -/

def p384p : Nat := 2 ^ 384 - 2 ^ 128 - 2 ^ 96 + 2 ^ 32 - 1
def p384n : Nat := 0xffffffffffffffffffffffffffffffffffffffffffffffffc7634d81f4372ddf581a0db248b0a77aecec196accc52973
def p384b : Nat := 0xb3312fa7e23ee7e4988e056be3f82d19181d9c6efe8141120314088f5013875ac656398d8a2ed19d2a85c8edd3ec2aef
def p384g : Nat × Nat :=
  (0xaa87ca22be8b05378eb1c71ef320ad746e1d3b628ba79b9859f741e082542a385502f25dbf55296c3a545e3872760ab7,
   0x3617de4a96262c6f5d9e98bf9292dc29f8f41dbd289a147ce9da3113b5f0b8c00a60b1ce1d7e819d7a431d7c90ea0e5f)

/-- b^e mod m, on the e's bits; fuel bounds their number. -/
def powMod (m : Nat) : Nat → Nat → Nat → Nat
  | 0, _, _ => 1 % m
  | f + 1, b, e =>
      if e = 0 then 1 % m
      else
        let h := powMod m f (b * b % m) (e / 2)
        if e % 2 = 1 then h * b % m else h

/-- The inverse modulo a prime. -/
def invMod (m a : Nat) : Nat := powMod m 400 (a % m) (m - 2)

/-- The sum of two points of the curve; none is the point at infinity. -/
def ptAdd (a b : Option (Nat × Nat)) : Option (Nat × Nat) :=
  match a, b with
  | none, q => q
  | q, none => q
  | some (x1, y1), some (x2, y2) =>
      let p := p384p
      if x1 = x2 ∧ (y1 + y2) % p = 0 then none
      else
        let l := if x1 = x2 then (3 * x1 * x1 + (p - 3)) * invMod p (2 * y1) % p
          else (y2 + (p - y1)) * invMod p (x2 + (p - x1)) % p
        let x := (l * l + (p - x1) + (p - x2)) % p
        some (x, (l * (x1 + (p - x)) + (p - y1)) % p)

/-- k times a point; fuel bounds the number of bits of k. -/
def ptMul : Nat → Nat → Option (Nat × Nat) → Option (Nat × Nat)
  | 0, _, _ => none
  | f + 1, k, q =>
      if k = 0 then none
      else
        let h := ptMul f (k / 2) (ptAdd q q)
        if k % 2 = 1 then ptAdd h q else h

/-- Is the point on the curve? -/
def onCurve (x y : Nat) : Bool :=
  decide (x < p384p) && decide (y < p384p) && y * y % p384p == (x * x * x + (p384p - 3) * x + p384b) % p384p

/-- Does the signature r, s over a digest verify under the uncompressed public key? -/
def ecdsaVerify (key digest sig : List Byte) : Bool :=
  let x := natBE (slice key 1 48)
  let y := natBE (slice key 49 48)
  let r := natBE (sig.take 48)
  let s := natBE (slice sig 48 48)
  let n := p384n
  if key.getD 0 0 = 4 ∧ onCurve x y ∧ 0 < r ∧ r < n ∧ 0 < s ∧ s < n then
    let w := invMod n s
    match ptAdd (ptMul 400 (natBE digest * w % n) (some p384g)) (ptMul 400 (r * w % n) (some (x, y))) with
    | some q => q.1 % n == r
    | none => false
  else false

/-- The signature over a digest with private key d and nonce k: r, s, 48 bytes each. -/
def ecdsaSign (d k : Nat) (digest : List Byte) : List Byte :=
  let n := p384n
  let k := k % (n - 1) + 1
  let r := (match ptMul 400 k (some p384g) with
    | some q => q.1
    | none => 0) % n
  let s := invMod n k * (natBE digest + r * (d % n)) % n
  bytesBE r 48 ++ bytesBE s 48

end Sys2Proof.Machine
end

