-- ==== Sys2Proof/Machine/Batch.lean ====
section
/-! DEFINITION. The launch table, batches and engine time (spec/12 R364-R372): the commands LAUNCH_TABLE_FIRE,
BATCH_FREEZE, ENGINE_TIME_CHARGE and SHARE_PERIOD, and what the commit and a replay share with them. -/
namespace Sys2Proof.Machine

/-! ### Entries and batch buffers (R364, R368) -/

def State.ltSeq (s : State) (e : Nat) : Nat := (s.reg (ltOff e 4)).toNat
def State.ltNext (s : State) (e : Nat) : Nat := (s.reg (ltOff e 1)).toNat
def State.ltSlots (s : State) (e : Nat) : Nat := s.fld (ltOff e 0) 23 8
def State.partRun (s : State) (p : Nat) : Bool := s.fld (partOff p 0) 62 62 == 1
def State.gwActive (s : State) : Bool := s.fld 0x100 61 61 == 1
def State.gwRole (s : State) : Nat := s.fld 0x100 63 62

/-- What the binary of an entry declares, once firmware has loaded the entry (R433). -/
def State.decl (s : State) (e : Nat) : Option BatchDecl := Tab.get (fun _ => none) s.gate.decls e

/-- BSZ, the size of a batch buffer. -/
def batchSize (nslot ncmt : Nat) : Nat := roundUp (32 + 32 * nslot + 8 * ncmt) 64

/-- The global addresses of the buffer that the bake with a SEQ reads, and of its completion words. -/
def State.bufAt (s : State) (e ncmt seq : Nat) : Nat := (s.reg (ltOff e 3)).toNat + seq % 2 * batchSize (s.ltSlots e) ncmt
def State.wordAt (s : State) (e ncmt seq m : Nat) : Nat := s.bufAt e ncmt seq + 32 + 32 * s.ltSlots e + 8 * m

/-- Every completion word of a bake's buffer set to w. -/
def State.putWords (s : State) (e seq : Nat) (w : Word) : State :=
  match s.decl e with
  | some d => (List.range d.ncmt).foldl (fun (s : State) m => s.dramPut (s.wordAt e d.ncmt seq m) (bytesLE w.toNat 8)) s
  | none => s

/-- The die cycle in which the tick in progress began. -/
def State.tickNow (s : State) : Nat := s.now - (s.tickLen - 1 - s.left)

/-! ### LAUNCH_TABLE_FIRE (R365) -/

/-- The next sequence number of the hub's queue. -/
def State.hubSeq (s : State) : Nat := (s.hubQ.map (fun q => q.msg.seq + 1)).foldl max 0

/-- Messages of one launch queued in order with a delivery tally. -/
def State.queueMsgs (s : State) (tally : Nat) (ms : List PortMsg) : State :=
  ms.foldl (fun (s : State) m => s.hubReceive { tally := some tally, seq := s.hubSeq, body := m }) s

/-- The messages of a launch: its PATCHes, then the LAUNCH. -/
def launchMsgs (r : LaunchRec) : List PortMsg :=
  let u := UnitForm.toId (.group r.group)
  (r.patches.map (fun p => (.patch ⟨u, p.1, p.2⟩ : PortMsg))) ++ [.launch ⟨u, r.tmpl, r.part, r.tally⟩]

/-- NEXT advances by PERIOD. -/
def State.nextPeriod (s : State) (e : Nat) : State :=
  s.setReg (ltOff e 1) (s.reg (ltOff e 1) + BitVec.ofNat 64 (s.fld (ltOff e 2) 31 0))

/-- The entry after a launch: a standing one advances and counts down, a one-shot one is spent. -/
def State.spendEntry (s : State) (e : Nat) : State :=
  if s.fld (ltOff e 0) 62 62 = 1 then
    let s := s.nextPeriod e
    let n := s.fld (ltOff e 2) 63 32
    if n = 0 then s
    else
      let s := s.setFld (ltOff e 2) 63 32 (n - 1)
      if n = 1 then s.setFld (ltOff e 0) 63 63 0 else s
  else s.setFld (ltOff e 0) 63 63 0

/-- P[PSEQ] := SEQ, then the valid HUB.LTPATCH entries. -/
def State.launchPatches (s : State) (e seq : Nat) : List (Nat × Word) :=
  (s.fld (ltOff e 0) 5 0, BitVec.ofNat 64 seq) :: (List.range 8).filterMap (fun i =>
    let off := 0x318000 + 0x80 * e + 0x10 * i
    if s.fld off 63 63 = 1 then some (s.fld off 5 0, s.reg (off + 8)) else none)

/-- The hub queues the launch of entry e. -/
def State.fireEntry (s : State) (e : Nat) : State :=
  let seq := (s.ltSeq e + 1) % 2 ^ 64
  let r : LaunchRec :=
    { seq := seq, tally := s.ltNext e, tmpl := s.fld (ltOff e 0) 56 52, group := s.ltGroup e, part := s.ltPart e,
      patches := s.launchPatches e seq, rkd := (List.range 6).map (fun i => s.reg (0x441000 + 0x40 * e + 8 * i)),
      dbg := s.fld 0x440010 63 63 == 1 || (s.groupModules (s.ltGroup e)).any (natBit s.audit.peers) }
  let old := Tab.get (fun _ => []) s.launches e
  let s := { s.setReg (ltOff e 4) (BitVec.ofNat 64 seq) with
             launches := Tab.set (fun _ => []) s.launches e ((old ++ [r]).drop (old.length - 1)) }
  (s.queueMsgs r.tally (launchMsgs r)).spendEntry e

/-- Is the travel-time table stale: no bake is launched until a new one is published (R212)? -/
def State.travelStale (s : State) : Bool := s.fld 0x200000 62 62 == 1

/-- LAUNCH_TABLE_FIRE (R365): at edge NEXT - 8. An entry on an aborted group launches nothing, nor does any on a group that
waits for the repair of a unit (R36, R40, R393), or while the travel-time table is stale (R212); a standing one's NEXT advances all the
same (R384, R390; of the last two cases DEDUCED, log 68). -/
def execLaunchTableFire (e : Nat) (s : State) : Res :=
  onIndex e 256 s (
    if !s.ltV e || !s.partRun (s.ltPart e) || s.ltNext e != s.tally + 8 then s
    else if s.aborts.any (fun a => a.group == s.ltGroup e) || s.launchHeld (s.ltGroup e) || s.travelStale then
      (if s.fld (ltOff e 0) 62 62 = 1 then s.nextPeriod e else s)
    else s.fireEntry e)

/-! ### The mirror (R363) -/

/-- The module that this one mirrors its records to (R363). -/
def State.mirrorTo (s : State) : Option Nat :=
  if s.gwRole = 1 && !s.topoSolo then some (s.fld 0x100 53 48)
  else if s.fld 0x130 63 62 = 1 then some (s.fld 0x130 59 54)
  else none

/-- A SYS message to the module that holds the mirror (log 18). -/
def State.mirror (s : State) (body : List Byte) : State :=
  match s.mirrorTo with
  | some m => s.sendSys { emptyFlit with
      type := 7, srcmod := s.me, dstmod := m, sent := s.cycle % 2 ^ 24, len := body.length - 1, body := body }
  | none => s

/-- The mirror message of a record: kind 1, its index and its bytes (log 18). -/
def recordBody (i : Nat) (r : StreamRec) : List Byte := bytesLE 1 1 ++ bytesLE i 4 ++ r.bytes

/-- Has the module that holds the mirror not yet acknowledged what it was sent of record i (R363)? -/
def State.unmirrored (s : State) (i : Nat) : Bool :=
  s.fab.sysOut.any (fun m => m.2.type == 7 && m.2.body.take 5 == bytesLE 1 1 ++ bytesLE i 4)

/-- A record changed, and mirrored. -/
def State.putRecord (s : State) (i : Nat) (r : StreamRec) : State :=
  (s.mirror (recordBody i r)).setStream i r

/-! ### BATCH_FREEZE (R368, R369) -/

/-- The open buffer of an entry, as accepted requests fill it: Urgent ones in order of acceptance first into the slots
reserved for them, then into any slot still free; Normal ones by deadline and then acceptance; Bulk ones by acceptance. -/
def placeBatch (nslot nurg : Nat) (l : List PendApp) : List (Nat × PendApp) :=
  let nurg := min nurg nslot
  let cls (c : Nat) : List PendApp := l.filter (fun a => a.cls == c)
  let urg := cls 0
  let norm := (cls 1).insertionSort (fun a b => a.deadline < b.deadline ∨ (a.deadline = b.deadline ∧ a.order ≤ b.order))
  let rest := (urg.drop nurg ++ norm ++ cls 2).take (nslot - nurg)
  ((urg.take nurg).zipIdx.map (fun x => (x.2, x.1))) ++ rest.zipIdx.map (fun x => (nurg + x.2, x.1))

/-- The last word of a slot: POS, GB, CLASS and SSLOT. -/
def slotWord (r : StreamRec) : Nat :=
  bits r.ctl 48 24 * 2 ^ 40 + bits r.ctl 53 53 * 2 ^ 39 + bits r.ctl 55 54 * 2 ^ 32 + bits r.slot 31 0

/-- The 32 bytes of slot j. -/
def State.slotBytes (s : State) (d : BatchDecl) (nslot b : Nat) (fill : List (Nat × PendApp)) (j : Nat) : List Byte :=
  match fill.find? (fun x => x.1 == j) with
  | some (_, a) =>
      bytesLE a.handle.toNat 8 ++ bytesLE (d.inLoc.getD (b * nslot + j) 0).toNat 8 ++
        bytesLE (d.resLoc.getD (b * nslot + j) 0).toNat 8 ++ bytesLE (slotWord (s.stream a.idx)) 8
  | none => bytesLE 0 8 ++ bytesLE d.nullIn.toNat 8 ++ bytesLE d.nullRes.toNat 8 ++ bytesLE d.nullSlot 8

/-- The buffer's bytes up to its completion words. -/
def State.batchBytes (s : State) (d : BatchDecl) (nslot seq : Nat) (fill : List (Nat × PendApp)) : List Byte :=
  bytesLE fill.length 4 ++ bytesLE ((fill.filter (fun x => x.2.cls == 0)).length) 4 ++ bytesLE seq 8 ++ bytesLE d.ncmt 4 ++
    List.replicate 12 0 ++ ((List.range nslot).map (s.slotBytes d nslot (seq % 2) fill)).flatten

/-- The record of a request in a frozen batch: state 3 and where its input and result lie. -/
def State.freezeRecord (s : State) (d : BatchDecl) (nslot b : Nat) (x : Nat × PendApp) : State :=
  let loc := d.inLoc.getD (b * nslot + x.1) 0
  let r := s.stream x.2.idx
  (s.putRecord x.2.idx { r with ctl := Machine.setFld r.ctl 62 60 3, inloc := loc, resloc := d.resLoc.getD (b * nslot + x.1) 0 }).dramPut
    loc.toNat x.2.input

/-- The batch of the launch r of entry e is frozen. -/
def State.freeze (s : State) (e : Nat) (d : BatchDecl) (r : LaunchRec) : State :=
  let nslot := s.ltSlots e
  let fill := placeBatch nslot (s.fld (ltOff e 0) 39 24) (s.gate.appends.filter (fun a => a.lte == e))
  let gone := fill.map (fun x => x.2)
  let f : Frozen := { lte := e, seq := r.seq, start := s.tickNow, slots := fill, rkd := r.rkd, dbg := r.dbg }
  let s := s.dramPut (s.bufAt e d.ncmt r.seq) (s.batchBytes d nslot r.seq fill)
  let s := { s with gate := { s.gate with appends := s.gate.appends.filter (fun a => !gone.contains a),
                                          frozen := s.gate.frozen ++ [f] } }
  fill.foldl (fun (s : State) x => s.freezeRecord d nslot (r.seq % 2) x) s

/-- BATCH_FREEZE (R369): at edge NEXT of a launch of entry e, on the gateway. A buffer whose last bake has not committed
is not opened: nothing is frozen into it. -/
def execBatchFreeze (e : Nat) (s : State) : Res :=
  onIndex e 256 s (match s.decl e, (Tab.get (fun _ => []) s.launches e).find? (fun r => r.tally == s.tally) with
    | some d, some r =>
        if s.gwActive && decide (0 < s.ltSlots e) &&
            !s.gate.frozen.any (fun f => f.lte == e && f.seq % 2 == r.seq % 2) then s.freeze e d r
        else s
    | _, _ => s)

/-! ### Engine time and shares (R371, R372) -/

/-- ENGINE_TIME_CHARGE (R371): the running cycles of the oldest kernel that has ended on the core and is not yet charged. What
is left at the end of a tick is charged with it (log 61). -/
def execEngineTimeCharge (u : CoreId) (s : State) : Res := onCore u s (fun key => s.chargeKernels key 1)

/-- The number of logical cores of the module whose die and cluster are ready. -/
def State.readyCores (s : State) : Nat :=
  ((List.range 48).map (fun c => if s.coreReady ⟨c / 12, c % 12, 0⟩ then s.slotsOf (c / 12) (c % 12) else 0)).foldl (· + ·) 0

/-- SHARE_PERIOD (R372): at every multiple of 262 144 ticks each partition's deficit is credited by its share. -/
def execSharePeriod (s : State) : Res :=
  .next (if s.tally % 262144 ≠ 0 then s
    else
      let q := s.readyCores * (s.tickNow - s.gate.periodAt)
      let live := (List.range 16).filter (fun p => s.fld (partOff p 0) 63 63 == 1)
      let sum := (live.map (fun p => s.fld (partOff p 0) 57 48)).foldl (· + ·) 0
      let s := live.foldl (fun (s : State) p =>
        let d := toSigned 64 (s.reg (partOff p 3)).toNat + ((q * s.fld (partOff p 0) 57 48 / sum : Nat) : Int)
        s.setReg (partOff p 3) (BitVec.ofInt 64 (max (-(q : Int)) (min (q : Int) d)))) s
      { s with gate := { s.gate with periodAt := s.tickNow } })

/-- The partition that the scheduler launches at a kernel boundary of a time-shared group (R372): of the candidates that RUN, the one
with the largest deficit, the lowest on a tie. -/
def State.nextShare (s : State) (ready : List Nat) : Option Nat :=
  ((List.range 16).filter (fun p => ready.contains p && s.partRun p)).foldl (fun (b : Option Nat) p =>
    let d (q : Nat) : Int := toSigned 64 (s.reg (partOff q 3)).toNat
    match b with
    | some q => if d q < d p then some p else b
    | none => some p) none

end Sys2Proof.Machine
end

