-- ==== Sys2Proof/Machine/Audit.lean ====
section
/-! DEFINITION. The audit engine and the debug port (spec/15): key records, crumbs and their chain, signed heads,
zeroisation, snapshots of counters, and the JTAG port. -/
namespace Sys2Proof.Machine

/-- What firmware reports as a failed load goes out as a mailbox event (R346, R433). -/
def State.loadFailed (s : State) : State := s.mailEvent

/-! ### Key records (R432, R433) -/

/-- A digest of 48 bytes in six registers from an offset. -/
def State.putDigest (s : State) (off : Nat) (h : List Byte) : State :=
  (List.range 6).foldl (fun (s : State) i => s.setReg (off + 8 * i) (BitVec.ofNat 64 (natLE (slice h (8 * i) 8)))) s
def State.getDigest (s : State) (off : Nat) : List Byte :=
  ((List.range 6).map (fun i => bytesLE (s.reg (off + 8 * i)).toNat 8)).flatten

/-- The logical unit map of a group in its canonical form (R41): 6 144 bytes, the bit of each core that the group reaches
set. -/
def State.unitMap (s : State) (g : Nat) : List Byte :=
  bytesLE ((s.reach 6 (UnitForm.toId (.group g))).foldl (fun (n : Nat) r =>
    match mapBit r.1 with
    | some b => nor n (2 ^ b)
    | none => n) 0) 6144

/-- VER of management core i (R418). -/
def State.mcVersion (s : State) (i : Nat) : Word := s.reg (0x430208 + 0x10 * i)

/-- The module entry of a key record (R432). A number that this module answers to carries its own versions (R433). -/
def State.moduleEntry (s : State) (peers : List ModuleVersions) (m : Nat) : List Byte :=
  let v := if s.answers m then (⟨m, s.reg 0x430008, (List.range 6).map s.mcVersion⟩ : ModuleVersions)
    else (peers.find? (fun p => p.module == m)).getD ⟨m, 0, []⟩
  bytesLE m 8 ++ bytesLE v.starter.toNat 8 ++ ((List.range 6).map (fun i => bytesLE (v.mcs.getD i 0).toNat 8)).flatten

/-- The key record of entry e (R432). -/
def State.keyRecord (s : State) (e : Nat) (key : KeyInput) : List Byte :=
  let mods := (List.range 64).filter ((s.groupModules (s.ltGroup e)).contains ·)
  bytesLE 1 2 ++ bytesLE mods.length 2 ++ List.replicate 4 0 ++ sha384 key.binary ++ padTo 0 48 key.conf ++
    bytesLE s.boot.hver.toNat 8 ++ s.unitMap (s.ltGroup e) ++ (mods.map (s.moduleEntry key.peers)).flatten

/-- A key record goes to the mirror in pieces of 128 bytes: kind 9, the partition, the place in the key area (R433, log 18). -/
def State.mirrorKey (s : State) (p off : Nat) (rec : List Byte) : State :=
  (List.range (rec.length / 128 + 1)).foldl (fun (s : State) i =>
    let piece := slice rec (128 * i) 128
    if piece.isEmpty then s
    else s.mirror (bytesLE 9 1 ++ bytesLE p 1 ++ bytesLE (off + 128 * i) 4 ++ piece)) s

/-- KEY_RECORD_FORM (R433): firmware loads entry e, or forms its key record anew. A full key area refuses the load. -/
def execKeyRecordForm (e : Nat) (key : KeyInput) (decl : BatchDecl) (s : State) : Res :=
  onIndex e 256 s (
    let p := s.ltPart e
    let ka := 0x445400 + 0x10 * p
    let used := s.fld (ka + 8) 31 0
    let record := s.keyRecord e key
    let len := roundUp record.length 64
    if s.fld (ka + 8) 63 32 * 2 ^ 20 < used + len then s.loadFailed
    else
      let s := (s.mirrorKey p used (padTo 0 len record)).dramPut ((s.reg ka).toNat + used) (padTo 0 len record)
      let s := (s.setFld (ka + 8) 31 0 (used + len)).putDigest (0x441000 + 0x40 * e) (sha384 record)
      let s := s.setReg (0x441000 + 0x40 * e + 0x30) (BitVec.ofNat 64 used)
      { s with gate := { s.gate with decls := Tab.set (fun _ => none) s.gate.decls e (some decl) } })

/-! ### The chain (R437, R438) -/

def chainOff (p w : Nat) : Nat := 0x445000 + 0x40 * p + 8 * w

/-- The genesis record. -/
def genesis (p tally : Nat) : List Byte :=
  bytesLE 0x48434B50 4 ++ bytesLE p 1 ++ List.replicate 3 0 ++ bytesLE tally 8 ++ bytesLE Config.certSerial.toNat 16 ++
    List.replicate 32 0

/-- A new chain for partition p. -/
def State.startChain (s : State) (p : Nat) : State :=
  ((s.setReg (chainOff p 0) 0).putDigest (chainOff p 1) (sha384 (genesis p s.tally))).setReg (chainOff p 7)
    (BitVec.ofNat 64 s.tally)

/-- Firmware's write of HUB.PART[p].W0, refused where the Urgent credits of all partitions would exceed 32 (R353); V
rising starts the partition's chain (R437). -/
def State.definePart (s : State) (p : Nat) (v : Word) : State :=
  let cred (q : Nat) : Nat := if q = p then bits v 47 40 else s.fld (partOff q 0) 47 40
  if 32 < ((List.range 16).map cred).foldl (· + ·) 0 then s
  else
    let old := s.reg (partOff p 0)
    let new := match findReg moduleRegs (partOff p 0) with
      | some (d, _) => d.write false old v
      | none => old
    let s1 := s.setReg (partOff p 0) new
    if !bitAt old 63 && bitAt new 63 && s.fld 0x100 63 62 != 0 then s1.startChain p else s1

/-- PARTITION_DEFINE (R437, R347). -/
def execPartitionDefine (p : Nat) (v : BitVec 64) (s : State) : Res := onIndex p 16 s (s.definePart p v)

/-! ### Signed heads (R439, R440) -/

/-- The signing of a partition's head starts. -/
def State.startSign (s : State) (p : Nat) : State :=
  let g : Signing := { part := p, cseq := (s.reg (chainOff p 0)).toNat, tally := s.tally, head := s.getDigest (chainOff p 1) }
  { s with audit := { s.audit with signs := s.audit.signs ++ [g] } }

/-- HEAD_SIGN (R439): on the active gateway. -/
def execHeadSign (p : Nat) (s : State) : Res := onIndex p 16 s (if s.gwActive then s.startSign p else s)

/-- The head record up to its signature. -/
def headBody (me : Nat) (g : Signing) : List Byte :=
  bytesLE 1 2 ++ bytesLE g.part 1 ++ List.replicate 5 0 ++ bytesLE g.cseq 8 ++ bytesLE g.tally 8 ++ padTo 0 48 g.head ++
    bytesLE Config.certSerial.toNat 16 ++ bytesLE me 8

/-- Is management core i running (R418)? -/
def State.mcReady (s : State) (i : Nat) : Bool := s.fld 0x430010 (53 + i) (53 + i) == 1

/-- HEAD_SIGN_COMPLETE (R440): the oldest signing completes, unless MC0 restarts. -/
def execHeadSignComplete (s : State) : Res :=
  .next (match s.audit.signs with
    | [] => s
    | g :: t =>
        if !s.mcReady 0 then s
        else
          let b := headBody s.me g
          let rec_ := b ++ ecdsaSign Config.identityKey (Config.nonce s.audit.signed) (sha384 b) ++ List.replicate 64 0
          let w := s.fld 0x445800 31 0
          let s := (List.range 32).foldl (fun (s : State) i =>
            s.setReg (0x448000 + 0x100 * (w % 128) + 8 * i) (BitVec.ofNat 64 (natLE (slice rec_ (8 * i) 8)))) s
          ({ s.setFld 0x445800 31 0 (w + 1) with
             audit := { s.audit with signs := t, signed := s.audit.signed + 1 } } : State).mailEvent.noteHub 0x39 g.part 1)

/-! ### Crumbs (R434-R436) -/

/-- What a crumb records besides its place in the chain. -/
structure CrumbIn where
  part : Nat
  reqid : Word
  strm : StreamRec
  bseq : Nat
  audseq : Nat
  rcnt : Nat
  late : Bool
  dbg : Bool
  pos : Nat
  cls : Nat
  odig : List Byte
  rkd : List Byte
deriving DecidableEq, Repr

def crumbBytes (c : CrumbIn) (cseq tally : Nat) (prev : List Byte) : List Byte :=
  bytesLE cseq 8 ++ bytesLE tally 8 ++ bytesLE c.reqid.toNat 8 ++ bytesLE c.strm.key.toNat 16 ++ bytesLE c.bseq 8 ++
    bytesLE c.audseq 8 ++
    bytesLE (c.part % 16 * 2 ^ 60 + c.cls % 4 * 2 ^ 58 + min 255 c.rcnt * 2 ^ 50 + c.late.toNat * 2 ^ 49 +
      c.dbg.toNat * 2 ^ 48 + c.pos % 2 ^ 24) 8 ++
    padTo 0 48 c.strm.idig ++ padTo 0 48 c.odig ++ padTo 0 48 c.rkd ++ padTo 0 48 prev

/-- One crumb with the tally of its commit (R434) written and chained, and copied into the crumb log; every 4 096th is signed (R439). A reserved LSIZE is taken as
2^LSIZE crumbs like the others (R13; DESIGN CHOICE, log 8). -/
def State.writeCrumb (s : State) (tally : Nat) (c : CrumbIn) : List Byte × State :=
  let p := c.part
  let cseq := ((s.reg (chainOff p 0)).toNat + 1) % 2 ^ 64
  let bs := crumbBytes c cseq tally (s.getDigest (chainOff p 1))
  let s := (s.setReg (chainOff p 0) (BitVec.ofNat 64 cseq)).putDigest (chainOff p 1) (sha384 bs)
  let cl := 0x445600 + 0x10 * p
  let s := if s.fld (cl + 8) 63 63 = 1 then
      s.dramPut ((s.reg cl).toNat + 256 * (cseq % 2 ^ s.fld (cl + 8) 4 0)) bs else s
  let s := s.noteHub 0x38 p 1
  (bs, if cseq % 4096 = 0 then s.startSign p else s)

/-! ### Zeroisation (R441) -/

/-- The registers of a core after zeroisation: S, P0-P62, PFIX, SXFR, MXOVF and MXPZN zero, no template valid, counters
and trace records cleared. -/
def Core.zeroRegs (c : Core) : Core :=
  let zero : List Nat := (List.range 63).map (fun i => 8 * i) ++ (List.range 16).map (fun i => 0x200 + 8 * i) ++
    [0x280, 0x290] ++ (List.range 8).map (fun i => 0x800 + 8 * i) ++ (List.range 8).map (fun i => 0x1800 + 8 * i) ++
    (List.range 128).map (fun i => 0x1900 + 8 * i)
  let c := zero.foldl (fun (c : Core) off => c.setReg off 0) c
  let c := (List.range 32).foldl (fun (c : Core) k => c.setReg (0x400 + 8 * k) (setFld (c.kt k) 63 63 0)) c
  c.setReg 0x1880 (setFld (c.reg 0x1880) 15 0 0)

/-- A write of CORE.OWN: ignored while a bake is queued or running; with Z = 1 the core is zeroised in 128 cycles, and the
combining slots that name it are reset. -/
def State.writeOwn (s : State) (key : Nat) (u : CoreId) (v : Word) : State :=
  let c := s.coreAt key
  if c.hasBake then s
  else
    let c := c.setReg 0x298 (Machine.setFld (c.reg 0x298) 3 0 (bits v 3 0))
    if bitAt v 63 then
      (s.setCoreAt key { c.unbindAll.invalidate.zeroRegs with mem := [], ecc := [], zeroUntil := s.now + 128 }).abortCombine u (fun _ => false)
    else s.setCoreAt key c

/-- ZEROISE (R441). -/
def execZeroise (u : CoreId) (v : BitVec 64) (s : State) : Res := onCore u s (fun key => s.writeOwn key u v)

/-! ### Snapshots (R448) -/

/-- A write of AUD.SNAP.CTL: arming after AT sets LATE. -/
def State.writeSnap (s : State) (v : Word) : State :=
  let off := 0x440008
  let w := s.reg off &&& ~~~(v &&& BitVec.ofNat 64 (3 * 2 ^ 61))
  let s := s.setReg off w
  if !bitAt v 63 then s.setFld off 63 63 0
  else if (s.reg 0x440000).toNat ≤ s.tally then (s.setFld off 62 62 1).setFld off 63 63 0
  else s.setFld off 63 63 1

/-- SNAPSHOT_ARM (R448). -/
def execSnapshotArm (v : BitVec 64) (s : State) : Res := .next (s.writeSnap v)

/-- The count of every counter copied into its snapshot register. -/
def State.snap (s : State) : State :=
  let one (s : State) (src dst : Nat) : State := s.setReg dst (BitVec.ofNat 64 (s.fld src 47 0))
  let s := (List.range 32).foldl (fun (s : State) i => one s (0x3000 + 8 * i) (0x3100 + 8 * i)) s
  let s := (List.range 128).foldl (fun (s : State) i =>
    one s (cdOff (i / 32) (0x4000 + 8 * (i % 32))) (cdOff (i / 32) (0x4100 + 8 * (i % 32)))) s
  (s.cores.map (fun e => e.1)).foldl (fun (s : State) key =>
    s.setCoreAt key ((List.range 8).foldl (fun (c : Core) i =>
      c.setReg (0x1840 + 8 * i) (BitVec.ofNat 64 (Machine.fld (c.reg (0x1800 + 8 * i)) 47 0))) (s.coreAt key))) s

/-- SNAPSHOT (R448): at edge AT, in the first die cycle of its tick, before that cycle's events. -/
def execSnapshot (s : State) : Res :=
  .next (if s.fld 0x440008 63 63 = 1 && decide ((s.reg 0x440000).toNat = s.tally) && decide (s.now = s.tickNow) then
      (s.snap.setFld 0x440008 63 63 0).setFld 0x440008 61 61 1
    else s)

/-! ### The debug port (R443-R445) -/

/-- Recovery mode (R416): the ROM has found no slot, or booted the recovery slot. -/
def State.recoveryMode (s : State) : Bool := s.boot.booted && decide (2 ≤ s.fld 0x430000 63 62)

/-- Does the granted scope hold bit n? -/
def State.inScope (s : State) (n : Nat) : Bool := s.fld 0x440010 63 63 == 1 && natBit (s.fld 0x440010 62 59) n

/-- The JTAG port takes an instruction; tdo is what its shift brings out. -/
def State.jtagIs (s : State) (i : JtagInstr) (tdo : List Byte) : State :=
  { s with audit := { s.audit with jtag := i, tdo := tdo } }

/-- A locked instruction behaves as BYPASS and is counted. -/
def State.jtagDeny (s : State) : State := (s.setFld 0x440010 31 0 (s.fld 0x440010 31 0 + 1)).jtagIs .bypass [0]

/-- BYPASS (R443). -/
def execBypass (s : State) : Res := .next (s.jtagIs .bypass [0])

/-- IDCODE (R443): the spec states no identity code, so what is shifted out is a free value. -/
def execIdcode (s : State) : Res :=
  .next (({ s with freeCtr := s.freeCtr + 1 } : State).jtagIs .idcode (bytesLE (Config.free s.freeCtr).toNat 4))

/-- A boundary-scan instruction: in recovery mode, or with scope bit 0. -/
def State.boundary (s : State) (f : State → State) : State :=
  if s.recoveryMode || s.inScope 0 then f s else s.jtagDeny

/-- SAMPLE/PRELOAD (R443): the bits shifted in stand in the boundary register; the pins' levels, which come out, are
free values. -/
def execSamplePreload (bits : List Bool) (s : State) : Res :=
  .next (s.boundary (fun s =>
    let n := ceilDiv bits.length 8
    let s1 := s.jtagIs .sample ((List.range n).map (fun i => BitVec.ofNat 8 (Config.free (s.freeCtr + i)).toNat))
    { s1 with freeCtr := s.freeCtr + n, audit := { s1.audit with boundary := bits } }))

/-- EXTEST (R443): the boundary register drives the pins. -/
def execExtest (s : State) : Res := .next (s.boundary (fun s => s.jtagIs .extest []))

/-- EXTEST_PULSE (R443). -/
def execExtestPulse (s : State) : Res := .next (s.boundary (fun s => s.jtagIs .extestPulse []))

/-- EXTEST_TRAIN (R443). -/
def execExtestTrain (s : State) : Res := .next (s.boundary (fun s => s.jtagIs .extestTrain []))

/-- The challenge in force. -/
def State.challenge (s : State) : List Byte := bytesLE (Config.challenge s.audit.drawn).toNat 16

/-- DBG_CHALLENGE (R444). -/
def execDbgChallenge (s : State) : Res := .next (s.jtagIs .dbgChallenge s.challenge)

/-- Is the token good (R444)? -/
def State.tokenOk (s : State) (t : List Byte) : Bool :=
  let root := natLE (slice t 40 1)
  t.length == 256 && natLE (t.take 4) == 0x4B4F5444 && decide (natLE (slice t 4 4) < 16) && slice t 8 16 == s.challenge &&
    slice t 24 16 == bytesLE Config.certSerial.toNat 16 && decide (root < 4) && !natBit s.boot.revoked root &&
    sha384 (slice t 41 97) == s.boot.rooth.getD root [] && (slice t 138 22).all (fun b => b == 0) &&
    ecdsaVerify (slice t 41 97) (sha384 (t.take 160)) (slice t 160 96)

/-- Every other module is told that this one has been unlocked (R445, log 18). -/
def State.tellUnlock (s : State) : State :=
  ((List.range s.nmod).filter (fun m => !s.answers m)).foldl (fun (s : State) m =>
    s.sendSys { emptyFlit with type := 7, srcmod := s.me, dstmod := m, sent := s.cycle % 2 ^ 24, len := 0,
                               body := bytesLE 8 1 }) s

/-- DBG_UNLOCK (R444): MC0 grants the scope of a good token, tells the other modules (R445), and refuses every token while it
restarts; a fresh challenge follows. -/
def execDbgUnlock (token : List (BitVec 8)) (s : State) : Res :=
  .next (
    let s1 := { s with audit := { s.audit with drawn := s.audit.drawn + 1 } }.jtagIs .dbgUnlock []
    if s.mcReady 0 && s.tokenOk token then
      ((s1.setFld 0x440010 63 63 1).setFld 0x440010 62 59 (nor (s.fld 0x440010 62 59) (natLE (slice token 4 1)))).tellUnlock
    else s1.setFld 0x440010 47 32 (s.fld 0x440010 47 32 + 1))

end Sys2Proof.Machine
end

