-- ==== Sys2Proof/Machine/Recovery.lean ====
section
/-! DEFINITION. Fault detection, watchdogs, generation change, replay, repair and standby modules (spec/13, R38): the
commands FAULT_DETECT to LOSS_CONFIRMATION. -/
namespace Sys2Proof.Machine

/-! ### Detection (R379, R381, R382) -/

/-- FAULT_DETECT (R382). -/
def execFaultDetect (f : FaultEvent) (s : State) : Res := .next (s.detect f)

/-- The record of a fault in an idle unit of the cluster, if it was the last written, is marked HARD (R36, R380). -/
def State.recordHard (s : State) (d k : Nat) : State :=
  let off := 0x340000 + 0x40 * ((s.fld 0x344000 31 0 + 255) % 256) + 8
  if s.fld off 63 60 == 0 && s.inCluster (BitVec.ofNat 32 (s.fld off 31 0)) d k then s.setFld off 59 59 1 else s

/-- Firmware loads a core's scratchpad from DRAM (R393). -/
def State.reload (s : State) (key : Nat) (l : List Reload) : State :=
  l.foldl (fun (s : State) x =>
    let r := s.gaBytes 0 0 x.src.toNat x.len
    r.2.setCoreAt key ((r.2.coreAt key).pokeBytes x.dst r.1)) s

/-- The unit that a cluster's capture names: the core at the physical slot, or the cluster for its combining unit. -/
def State.capturedUnit (s : State) (d k : Nat) : UnitId :=
  match s.idOf (physKey d k (s.fld (errOff d k) 57 53)) with
  | some u => s.unitOf u
  | none => UnitForm.toId (.cluster s.me d k)

/-- FAULT_RECHECK (R379, R393): the unit of a cluster's captured fault repeats the check, with the given outcome. A unit that fails
again is hard, and no bake of a group that reaches it is launched until it is repaired; one that passes is repaired by the reload of its
persistent region. -/
def execFaultRecheck (d k : Nat) (again : Bool) (load : List Reload) (s : State) : Res :=
  onIndex d 4 s (if 12 ≤ k || s.fld (errOff d k) 63 63 != 1 then s
    else
      let u := s.capturedUnit d k
      if again then
        (({ (s.setFld (errOff d k) 62 62 1).recordHard d k with
             aborts := s.aborts.map (fun a => if a.cls == 0 && s.inCluster a.unit d k then { a with hard := true } else a) } : State).holdUnit u).hardFault d k
      else if s.fld (errOff d k) 62 62 = 1 then s
      else if s.fld (errOff d k) 57 53 < 17 then (s.reload (physKey d k (s.fld (errOff d k) 57 53)) load).freeUnit u
      else s.freeUnit u)

/-- An abort flit's effect: ABORT to the bakes of the named partitions that count as queued or running (R382). -/
def State.abortFromFlit (s : State) (body : List Byte) : State :=
  let n (i k : Nat) : Nat := natLE (slice body i k)
  s.abortCopy (n 18 2) (n 8 8) (n 16 1) (n 17 1 % 64) (n 0 8)

/-- ABORT_FLIT (R382): a received abort flit, taken from those that have been ejected if it is among them. -/
def execAbortFlit (body : List (BitVec 8)) (s : State) : Res :=
  .next (
    let s := { s with fab := { s.fab with sysIn := match s.fab.sysIn.find? (fun (f : Flit) => f.type == 6 && f.body == body) with
      | some f => s.fab.sysIn.erase f
      | none => s.fab.sysIn } }
    s.abortFromFlit body)

/-- A watchdog fault of a core's partition. -/
def State.watchdog (s : State) (u : CoreId) (p : Nat) : State :=
  s.detect { cls := 3, unit := s.unitOf u, parts := 2 ^ p, capture := none }

/-- SYNC_WATCHDOG (R381): the core has spent SYNCLIM ticks stalled. -/
def execSyncWatchdog (u : CoreId) (s : State) : Res :=
  onCore u s (fun key =>
    let c := s.coreAt key
    let lim := s.fld (0x1400 + 8 * c.part) 23 0
    match c.stall with
    | some st => if decide (0 < lim) && decide (st.since + lim ≤ s.tally) then s.watchdog u c.part else s
    | none => s)

/-- PROGRESS_WATCHDOG (R381): a bake still runs PROGLIM ticks after its delivery tally. -/
def execProgressWatchdog (u : CoreId) (s : State) : Res :=
  onCore u s (fun key =>
    let c := s.coreAt key
    let lim := s.fld (0x1400 + 8 * c.part) 63 40
    if c.seq.run && decide (0 < lim) && decide (c.seq.tally + lim ≤ s.tally) then s.watchdog u c.part else s)

/-! ### The generation change (R385, R386) -/

/-- Tags of an aborted group's operations return, and the operations and the signals of their transfers end. -/
def State.returnTags (s : State) (group gen : Nat) : State :=
  let old (o : SxOp) : Bool := o.group == group && o.gen == gen
  let s := (s.ops.filter old).foldl (fun (s : State) o => match o.tag with
    | some t => s.freeTag o.core.die t
    | none => s) s
  { s with ops := s.ops.filter (fun o => !old o), sigs := s.sigs.filter (fun g => !(g.group == group && g.gen == gen)) }

/-- A tag that an idle core was granted for an operation it never emitted returns. -/
def State.returnHeld (s : State) : State :=
  s.cores.foldl (fun (s : State) e =>
    let c := s.coreAt e.1
    match c.heldTag with
    | some t => if c.seq.run then s
        else (s.freeTag (e.1 / 17 / 12) t).setCoreAt e.1 { c with heldTag := none }
    | none => s) s

/-- Queued writes of the group and its old generation are discarded by the controllers, into the gutter. -/
def State.discardWrites (s : State) (group gen : Nat) : State :=
  let stale (r : DramReq) : Bool := r.write.isSome && r.for_ != .host && r.group == group && r.gen == gen
  (List.range 8).foldl (fun (s : State) m =>
    let x := s.dramOf m
    let n := ((x.queues.map (fun q => (q.2.filter stale).length))).foldl (· + ·) 0
    let qs : Tab (List DramReq) := (x.queues.map (fun q => (q.1, q.2.filter (fun r => !stale r)))).filter (fun q => !q.2.isEmpty)
    (List.range n).foldl (fun (s : State) _ => s.gutter 1 group gen s.me) (s.setDram m { x with queues := qs })) s

/-- The cores no longer single out the old generation's elements: their GEN tells them (R160, R386). -/
def State.endGutter (s : State) (group gen : Nat) : State :=
  (s.cores.map (fun e => e.1)).foldl (fun (s : State) key =>
    let c := s.coreAt key
    s.setCoreAt key { c with gutter := c.gutter.filter (fun g => g != (group, gen)) }) s

/-- Advances of the group within the last 2^18 ticks, this one included (R387). -/
def State.advances (s : State) (group : Nat) : Nat :=
  (s.genLog.filter (fun e => e.1 == group && decide (s.tally < e.2 + 2 ^ 18))).length

/-- One group's generation advances: tags, queued writes, completion words, the record (R380, R385), and the end of its
replays if it has been aborted too often (R387, R391); object 0 of a barrier group returns to 0 (R278). -/
def State.changeGen (s : State) (a : AbortRec) : State :=
  let s := s.setFld (gdOff a.group 0) 55 48 ((a.gen + 1) % 256)
  let s := (((s.returnTags a.group a.gen).returnHeld.discardWrites a.group a.gen).endGutter a.group a.gen).zeroBarrier a.group
  let s := if s.gwActive then a.bakes.foldl (fun (s : State) b => match b.lte with
      | some e => s.putWords e b.seq (BitVec.ofNat 64 (2 ^ 64 - 1))
      | none => s) s else s
  let s : State := { s with genLog := s.genLog.filter (fun (e : Nat × Nat) => decide (s.tally < e.2 + 2 ^ 18)) ++ [(a.group, s.tally)] }
  let stop : Bool := a.stop || Nat.ble 128 (State.advances s a.group)
  let s := if stop then s.setFld (partOff a.part 0) 62 62 0 else s
  let keep := a.bakes.filter (fun b => b.lte.isSome)
  let s := { s with aborts := s.aborts.filterMap (fun (x : AbortRec) =>
    if x.group == a.group && !x.changed then
      (if stop || keep.isEmpty then none else some { x with bakes := keep, changed := true, stop := stop })
    else some x) }
  s.groupRecord { a with stop := stop }

/-- GENERATION_CHANGE (R385): every aborted group whose edge TG has come. -/
def execGenerationChange (s : State) : Res :=
  .next ((s.aborts.filter (fun a => !a.changed && decide (a.tg ≤ s.tally))).foldl (fun (s : State) a => s.changeGen a) s)

/-! ### Replay (R389, R390) -/

/-- One recorded launch queued again, for the tick in progress as its replay tally TR. -/
def State.requeue (s : State) (r : LaunchRec) : State :=
  let r := { r with tally := s.tally }
  (launchMsgs r).foldl (fun (s : State) m =>
    { s with hubQ := s.hubQ ++ [⟨{ tally := some s.tally, seq := s.hubSeq, body := m }, some (s.tickNow + 64)⟩] }) s

/-- The replay of an entry's aborted bakes, in order of SEQ; a frozen batch is committed by the replay's end. -/
def State.replayEntry (s : State) (e : Nat) (a : AbortRec) : State :=
  let ours := a.bakes.filter (fun b => b.lte == some e)
  let rs := (Tab.get (fun _ => []) s.launches e).filter (fun r => ours.any (fun b => b.seq == r.seq))
  let s := rs.foldl State.requeue s
  let hit (seq : Nat) : Bool := rs.any (fun r => r.seq == seq)
  let recs := (Tab.get (fun _ => []) s.launches e).map (fun r => if hit r.seq then { r with tally := s.tally } else r)
  let left := a.bakes.filter (fun b => b.lte != some e)
  { s with
    launches := Tab.set (fun _ => []) s.launches e recs
    gate := { s.gate with frozen := s.gate.frozen.map (fun f => if f.lte == e && hit f.seq then { f with start := s.tickNow, found := none } else f) }
    aborts := s.aborts.filterMap (fun x => if x == a then (if left.isEmpty then none else some { x with bakes := left }) else some x) }

/-- Is MC1, which coordinates and repairs, loading, restarting or failed: repair and replay wait (R421)? -/
def State.mc1Down (s : State) : Bool := [1, 3, 4].contains (s.fld 0x430210 61 59)

/-- May an abort's bakes be replayed: no unit of the group waits for repair (R390, R393), the travel-time table is in force (R212),
and after a droop fault the lowered step has taken effect (R396)? -/
def State.mayReplay (s : State) (a : AbortRec) : Bool :=
  !s.launchHeld a.group && !s.travelStale && (a.cls != 4 || (s.cad.droop.isEmpty && s.cad.lower.isNone))

/-- REPLAY (R390): at tally TR, which is not before TG. A stopped group is not replayed (R391). -/
def execReplay (e : Nat) (s : State) : Res :=
  onIndex e 256 s (match s.aborts.find? (fun a => a.changed && !a.stop && a.bakes.any (fun b => b.lte == some e)) with
    | some a => if s.mayReplay a && !s.mc1Down then s.replayEntry e a else s
    | none => s)

/-! ### Repair (R38, R399) -/

/-- Does the physical core have a bake queued or running? -/
def State.bakeOnSlot (s : State) (d k p : Nat) : Bool := (s.coreAt (physKey d k p)).hasBake

/-- Does a write of CL.SPARE take effect (R38)? It is ignored whole with PFAIL above 15, or while the failed core or the spare has a
bake; one that sets SUBST has effect only with SPOK = 1 and an unfused slot. -/
def State.spareTaken (s : State) (d k : Nat) (v : Word) : Bool :=
  let w := s.reg (clOff d k 0)
  let pf := bits v 4 0
  !(decide (16 ≤ pf) || s.bakeOnSlot d k pf || s.bakeOnSlot d k (bits w 4 0) || s.bakeOnSlot d k 16) &&
    !(bitAt v 23 && (!bitAt w 24 || bitAt w (32 + pf)))

/-- A write of CL.SPARE (R38). A substitution restarts the counts of R391, and the failed slot's unit is no longer waited for
(R393). -/
def State.writeSpare (s : State) (d k : Nat) (v : Word) : State :=
  if s.spareTaken d k v then
    let off := clOff d k 0
    let t := { s.setReg off (Machine.setFld (Machine.setFld (s.reg off) 23 23 (bits v 23 23)) 4 0 (bits v 4 0)) with rcnt := [] }
    match bitAt v 23, s.idOf (physKey d k (bits v 4 0)) with
    | true, some u => t.freeUnit (s.unitOf u)
    | _, _ => t
  else s

/-- CORE.KT, CORE.PFIX and P0-P62 of the spare from firmware's copy of the load values (R393). -/
def Core.loadRegs (c : Core) (l : List (Nat × Word)) : Core :=
  l.foldl (fun (c : Core) e => match findReg coreRegs e.1 with
    | some (d, ix) => if d.base = 0x400 || d.base == 0x280 || (d.base == 0 && ix != [63]) then c.setReg e.1 (d.write false (c.reg e.1) e.2) else c
    | none => c) c

/-- SPARE_SUBSTITUTION (R38, R393): MC1's write of CL.SPARE, and, where it puts the spare in a slot's place, the load of the spare's
registers and the reload of its instruction area and persistent region. -/
def execSpareSubstitution (d k : Nat) (v : BitVec 64) (regs : List (Nat × BitVec 64)) (load : List Reload) (s : State) : Res :=
  onIndex d 4 s (if 12 ≤ k || s.mc1Down then s
    else
      let t := s.writeSpare d k v
      let key := physKey d k 16
      if s.spareTaken d k v && bitAt v 23 then (t.setCoreAt key ((t.coreAt key).loadRegs regs)).reload key load else t)

/-- Records mirrored by another module, in the order of their messages (R363, log 18): index and bytes. -/
def State.mirrored (s : State) (from_ : Nat) : List (Nat × StreamRec) :=
  s.fab.sysIn.filterMap (fun f => if f.type == 7 && f.srcmod == from_ && (f.body.getD 0 0) == 1 then
    some (natLE (slice f.body 1 4), StreamRec.ofBytes (f.body.drop 5)) else none)

/-- The records of a lost module rebuilt from the mirror at their indices (R399). -/
def State.rebuildStreams (s : State) (from_ : Nat) : State :=
  (s.mirrored from_).foldl (fun (s : State) r => s.setStream r.1 r.2) s

/-- STANDBY_PROMOTION (R399): at tally TP a standby answers to the module it protects, with that module's records; the
armed routes are committed, and the counts of R391 restart. -/
def execStandbyPromotion (s : State) : Res :=
  .next (
    let s := s.commitFabric
    if s.fld 0x130 63 62 = 2 then
      { (s.setFld 0x130 61 61 1).rebuildStreams (s.fld 0x130 59 54) with rcnt := [] }
    else { s with rcnt := [] })

/-- The logical ports cabled to module j, reserve ports included. -/
def State.portsTo (s : State) (j : Nat) : List Nat :=
  ((List.range 6).filterMap (fun c =>
    let b := bundlePorts s.topo c
    if b.1.isEmpty || neighbour s.topo s.me c != j then none else some (b.1 ++ [b.2]))).flatten

/-- LOSS_CONFIRMATION (R399): every port cabled to module j is disabled. -/
def execLossConfirmation (j : Nat) (s : State) : Res :=
  onIndex j 64 s ((s.portsTo j).foldl (fun (s : State) r =>
    (s.setFld (fpOff (s.phys r) 0) 63 63 0).toPortState (s.phys r) 0) s)

end Sys2Proof.Machine
end

