-- ==== Sys2Proof/Machine/Requests.lean ====
section
/-! DEFINITION. Rings, requests and results (spec/12 R348-R363), the commit (R370), resets of the endpoint (R375, R460), the
takeover by the alternate gateway (R376) and apertures (R345): the commands DOORBELL to GATEWAY_TAKEOVER, COMMIT,
HOST_LINK_UP, HOST_LINK_DOWN, MSIX_MTIM_EXPIRY and APERTURE_ACCESS. -/
namespace Sys2Proof.Machine

/-! ### Ring pages and readiness (R348, R418, R419) -/

def rqOff (p c w : Nat) : Nat := 0x80000 + 0x4000 * p + 0x40 * c + 8 * w
def cqOff (p w : Nat) : Nat := 0x80100 + 0x4000 * p + 8 * w
def State.rings (s : State) : Bool := s.fld 0x430010 62 62 == 1
def State.streamReady (s : State) : Bool := s.fld 0x430010 61 61 == 1
def State.hostReady (s : State) : Bool := s.fld 0x430010 63 63 == 1

/-- What the endpoint tells of itself (R340, R341, R416): its class code, the device ID of a function, and TotalVFs. -/
def State.classCode (s : State) : Nat := if s.recoveryMode then 0xFF0000 else 0x120000
def State.deviceId (s : State) (vf : Option Nat) : Nat := if s.recoveryMode then 0x08AF else if vf.isNone then 0x08A0 else 0x08A1
def State.totalVfs (s : State) : Nat := if s.gwRole = 0 || s.recoveryMode then 0 else 16

/-- Is the VF of partition p there and enabled (R341, R347)? -/
def State.vfOn (s : State) (p : Nat) : Bool := decide (p < min s.gate.vfs s.totalVfs)

/-- RINGS: a gateway role, HOST, STREAM, MC2 or MC3, and a completed negotiation with equal epochs; setReady holds it
back where a required feature is missing. -/
def State.updateRings (s : State) : State :=
  s.setReady 0x430010 62 (s.gwRole != 0 && s.hostReady && s.streamReady && (s.mcReady 2 || s.mcReady 3) &&
    s.fld 0x430480 63 62 == 3 && s.fld 0x430480 30 30 == 0)

/-- Descriptors of a ring fetched and not yet accepted. -/
def State.fetchedOf (s : State) (p c : Nat) : List Fetched := s.gate.fetched.filter (fun f => f.part == p && f.ring == c)

/-! ### Doorbells and fetches (R352, R353) -/

/-- A doorbell write: TAIL := PI; an overrun of a ring in use halts it and signals vector 0 of the function. The alternate
records TAIL only (R376). -/
def State.doorbell (s : State) (p c : Nat) (pi : Nat) : State :=
  let s := s.setFld (rqOff p c 2) 63 32 pi
  let cfg := s.reg (rqOff p c 1)
  let out := (pi % 2 ^ 32 + 2 ^ 32 - s.fld (rqOff p c 2) 31 0) % 2 ^ 32
  if s.gwActive && bitAt cfg 63 && !bitAt cfg 62 && decide (2 ^ bits cfg 4 0 < out) then
    (s.setFld (rqOff p c 1) 62 62 1).interrupt (some p) 0
  else s

/-- A command t on ring c of partition p; on a ring that does not exist it has no effect (log 60). -/
def onRing (p c : Nat) (s t : State) : Res := .next (if p < 16 ∧ c < 3 then t else s)

/-- DOORBELL (R352): while RINGS is clear the ring page takes no write (R419). -/
def execDoorbell (p c : Nat) (pi : BitVec 32) (s : State) : Res := onRing p c s (if s.rings then s.doorbell p c pi.toNat else s)

/-- Has the ring a descriptor that may be fetched, credits and tokens apart: its VF is enabled and its partition defined (R347)? -/
def State.ringWaits (s : State) (p c : Nat) : Bool :=
  let cfg := s.reg (rqOff p c 1)
  s.vfOn p && s.fld (partOff p 0) 63 63 == 1 && bitAt cfg 63 && !bitAt cfg 62 &&
    (s.fld (rqOff p c 2) 31 0 + (s.fetchedOf p c).length) % 2 ^ 32 != s.fld (rqOff p c 2) 63 32

/-- May ingest fetch from the ring: an Urgent one with a free credit, another with a token? -/
def State.mayFetch (s : State) (p c : Nat) : Bool :=
  s.ringWaits p c && (if c = 0 then decide (0 < s.urgentFree p) else decide (0 < s.fld (partOff p 1) 31 16))

/-- The ring that is fetched next: Urgent before Normal before Bulk, each class in rotation by partition. -/
def State.nextRing (s : State) : Option (Nat × Nat) :=
  [0, 1, 2].findSome? (fun c =>
    ((List.range 16).map (fun i => (s.gate.turn.getD c 0 + i) % 16)).findSome? (fun p =>
      if s.mayFetch p c then some (p, c) else none))

/-- The host address of the next descriptor that is fetched from a ring (R349). -/
def State.descAddr (s : State) (p c : Nat) : Nat :=
  (s.reg (rqOff p c 0)).toNat / 4096 * 4096 +
    64 * ((s.fld (rqOff p c 2) 31 0 + (s.fetchedOf p c).length) % 2 ^ s.fld (rqOff p c 1) 4 0)

/-- INGEST_FETCH (R353): the next descriptor, and its input, as host memory gives them to the endpoint's reads (R340, R349). -/
def execIngestFetch (desc : ReqDesc) (input : List (BitVec 8)) (s : State) : Res :=
  .next (if !s.rings || !s.gwActive then s
    else match s.nextRing with
      | none => s
      | some (p, c) =>
          let s := if c = 0 then s else s.setFld (partOff p 1) 31 16 (s.fld (partOff p 1) 31 16 - 1)
          let f : Fetched := { part := p, ring := c, desc := desc, input := input, done := none }
          let reads : List HostOut := [.read (some p) (s.descAddr p c) 64] ++
            (if bits desc.opw 63 60 = 2 ∧ 0 < desc.inlen then [.read (some p) desc.inaddr.toNat desc.inlen] else [])
          { s with hostOut := s.hostOut ++ reads
                   gate := { s.gate with fetched := s.gate.fetched ++ [f], turn := s.gate.turn.set c ((p + 1) % 16) } })

/-- INGEST_REFILL (R353): at the start of a Ridge frame. -/
def execIngestRefill (s : State) : Res :=
  .next ((List.range 16).foldl (fun (s : State) p =>
    let w := s.reg (partOff p 1)
    let waits := bits w 31 16 == 0 && (s.ringWaits p 1 || s.ringWaits p 2)
    (s.noteHub 0x35 p (if waits then 1 else 0)).setFld (partOff p 1) 31 16 (min (bits w 31 16 + bits w 15 0) (bits w 63 48))) s)

/-! ### Records (R357-R363) -/

/-- The number of the primary gateway. -/
def State.primaryGw (s : State) : Nat := if s.gwRole = 2 then s.fld 0x100 53 48 else s.me

/-- Are records of module m held here: its own, those of a module it answers for, and on an active alternate those of the
primary gateway (R376)? -/
def State.homeHere (s : State) (m : Nat) : Bool :=
  s.answers m || (s.gwRole == 2 && s.gwActive && m == s.primaryGw)

/-- A record as it is without its pending APPEND. -/
def StreamRec.unpended (r : StreamRec) : StreamRec := { r with ctl := Machine.setFld r.ctl 62 60 1, reqid := 0, resaddr := 0 }

/-- A record whose APPEND is discarded before acceptance is idle again. -/
def State.unpend (s : State) (f : Fetched) : State :=
  match f.done with
  | some (_, h, true) =>
      s.putRecord (bits h 57 40) (s.stream (bits h 57 40)).unpended
  | _ => s

/-- Descriptors fetched but not accepted are discarded. -/
def State.dropFetched (s : State) (out : Fetched → Bool) : State :=
  let s := (s.gate.fetched.filter out).foldl State.unpend s
  { s with gate := { s.gate with fetched := s.gate.fetched.filter (fun f => !out f) } }

def handleOf (m i tgen : Nat) : Word := BitVec.ofNat 64 (m % 64 * 2 ^ 58 + i % 2 ^ 18 * 2 ^ 40 + tgen % 2 ^ 24 * 2 ^ 16)

/-- STREAMSTAT moved by one from one field to another, which keeps their sum (R362); the fields start at bit 42 (RET),
21 (OCC) and 0 (FREE). -/
def State.moveStat (s : State) (from_ to_ : Nat) : State :=
  if s.fld 0x110 (from_ + 20) from_ = 0 then s else
  let s := s.setFld 0x110 (from_ + 20) from_ (s.fld 0x110 (from_ + 20) from_ - 1)
  s.setFld 0x110 (to_ + 20) to_ (s.fld 0x110 (to_ + 20) to_ + 1)

/-- The lowest free record. -/
def State.freeRecord (s : State) : Option Nat :=
  if s.fld 0x110 20 0 = 0 then none
  else (List.range (s.gate.streams.length + 1)).find? (fun i => bits (s.stream i).ctl 62 60 == 0)

/-- The lowest state slot that no record of the partition holds, other than the null slot of the entry. -/
def State.freeSlot (s : State) (p e : Nat) : Nat :=
  let used : List Nat := (s.gate.streams.filter (fun x => bitAt x.2.ctl 63 && bits x.2.ctl 59 56 == p)).map (fun x => bits x.2.slot 31 0)
  let null : List Nat := match s.decl e with
    | some d => [d.nullSlot]
    | none => []
  ((List.range (used.length + 2)).find? (fun n => !used.contains n && !null.contains n)).getD 0

/-- The global address of buffer b of a state slot of an entry. -/
def stateAt (d : BatchDecl) (slot b : Nat) : Nat := d.stBase.toNat + d.stSize * (2 * slot + b)

/-- A record taken for a new stream of partition p, with its state buffer 0 filled; its handle. -/
def State.openRecord (s : State) (p cls e home : Nat) (key : BitVec 128) (fill : BatchDecl → State → List Byte × State) :
    Option (Word × State) :=
  match s.freeRecord with
  | none => none
  | some i =>
      let slot := s.freeSlot p e
      let tgen := bits (s.stream i).ctl 23 0
      let s := match s.decl e with
        | some d =>
            let x := fill d s
            x.2.dramPut (stateAt d slot 0) (padTo 0 d.stSize x.1)
        | none => s
      let ctl : Word := BitVec.ofNat 64 (2 ^ 63 + 2 ^ 60 + p * 2 ^ 56 + cls * 2 ^ 54 + tgen)
      let r : StreamRec := { key := key, ctl := ctl, slot := BitVec.ofNat 64 (e * 2 ^ 32 + slot) }
      let s := ((s.putRecord i r).moveStat 0 21).setFld (partOff p 4) 20 0 (s.fld (partOff p 4) 20 0 + 1)
      some (handleOf home i tgen, s)

/-- A record retires (R362). -/
def State.retireRecord (s : State) (i : Nat) : State :=
  let r := s.stream i
  (s.putRecord i { r with ctl := Machine.setFld (Machine.setFld r.ctl 63 63 0) 62 60 4 }).moveStat 21 42

/-- A stream closes: at once, or after the commit of its pending APPEND. -/
def State.closeRecord (s : State) (i : Nat) : State :=
  let st := bits (s.stream i).ctl 62 60
  if st = 2 ∨ st = 3 then
    (if s.gate.closing.contains i then s else { s with gate := { s.gate with closing := s.gate.closing ++ [i] } })
  else s.retireRecord i

/-! ### Requests (R349-R351) -/

def reqOp (d : ReqDesc) : Nat := bits d.opw 63 60

/-- A reserved code or a reserved bit that is not zero (R350). -/
def reqBad (d : ReqDesc) : Bool :=
  decide (4 < bits d.opw 63 60) || (bits d.opw 63 60 == 1 && bits d.opw 59 58 == 3) || bits d.opw 56 56 != 0 ||
    bits d.opw 49 48 != 0 || bits d.opw 39 0 != 0

/-- What a handle names: nothing, a record of another module, or one held here (R351, R359). -/
inductive Named where
  | bad
  | away
  | here (i : Nat)
deriving DecidableEq, Repr

def State.named (s : State) (p : Nat) (h : Word) : Named :=
  let m := bits h 63 58
  let i := bits h 57 40
  let r := s.stream i
  if s.homeHere m then
    (if bitAt r.ctl 63 && bits r.ctl 23 0 == bits h 39 16 && bits r.ctl 59 56 == p && bits h 15 0 == 0 then .here i else .bad)
  else if m < s.nmod then .away
  else .bad

/-- Has the stream an APPEND pending, its result descriptor not yet written (R361)? -/
def State.appendOpen (s : State) (i : Nat) (h : Word) : Bool :=
  let st := bits (s.stream i).ctl 62 60
  st == 2 || st == 3 || s.gate.results.any (fun r => r.handle == h && r.audseq != 0)

/-- May partition p take a further record (R351)? -/
def State.mayOpen (s : State) (p : Nat) : Bool :=
  s.freeRecord.isSome && decide (s.fld (partOff p 4) 20 0 < s.fld (partOff p 0) 20 0)

/-- The first descriptor of the list that has not been acted on is marked with its outcome. -/
def markDone (d : Nat × Word × Bool) (p c : Nat) : List Fetched → List Fetched
  | [] => []
  | f :: l => if f.part == p && f.ring == c && f.done.isNone then { f with done := some d } :: l else f :: markDone d p c l

/-- The outcome of a request: status, handle, and whether an APPEND now waits for its bake. -/
abbrev ReqOut := Option ((Nat × Word × Bool) × State)

/-- The oldest descriptor of ring (p, c) that has not been acted on, if it is of the operation, is acted on. A request whose
record another module holds waits for that module (log 21). -/
def State.onRequest (s : State) (p c op : Nat) (act : ReqDesc → List Byte → State → ReqOut) : State :=
  match s.gate.fetched.find? (fun f => f.part == p && f.ring == c && f.done.isNone) with
  | none => s
  | some f =>
      if reqOp f.desc != op || reqBad f.desc || !s.gwActive || (op != 0 && !s.streamReady) then s
      else match act f.desc f.input s with
        | none => s
        | some (d, s) => { s with gate := { s.gate with fetched := markDone d p c s.gate.fetched } }

/-- The outcome of a request that is completed at once. -/
def ReqOut.ends (s : State) (status : Nat) (h : Word) : ReqOut := some ((status, h, false), s)

/-- NOP (R350). -/
def execNop (p c : Nat) (s : State) : Res :=
  onRing p c s (s.onRequest p c 0 (fun d _ s => ReqOut.ends s 0 d.handle))

/-- OPEN (R350, R351, R363): with HAUTO = 1 an Urgent stream is homed on the primary gateway and any other on this module
(log 21). -/
def State.openStream (s : State) (p : Nat) (d : ReqDesc) : ReqOut :=
  let cls := bits d.opw 59 58
  let auto := bitAt d.opw 57
  let home := if auto then (if cls = 0 then s.primaryGw else s.me) else bits d.opw 55 50
  let e := bits d.opw 47 40
  if s.homeHere home && !s.mayOpen p then ReqOut.ends s 5 d.handle
  else if cls = 0 && home != s.primaryGw then ReqOut.ends s 6 d.handle
  else if !s.homeHere home then (if home < s.nmod then none else ReqOut.ends s 5 d.handle)
  else match s.openRecord p cls e home d.key (fun b s => (b.init, s)) with
    | some (h, s) => ReqOut.ends s 0 h
    | none => ReqOut.ends s 5 d.handle

/-- OPEN (R350). -/
def execOpenS (p c : Nat) (s : State) : Res := onRing p c s (s.onRequest p c 1 (fun d _ s => s.openStream p d))

/-- APPEND on the record that its handle names (R350, R351, R360): the checks in their order, then the record waits with
the input's digest. -/
def State.appendTo (s : State) (c i : Nat) (d : ReqDesc) (input : List Byte) : ReqOut :=
  let r := s.stream i
  let long := match s.decl (bits r.slot 39 32) with
    | some b => decide (b.inSize < d.inlen)
    | none => false
  if bits r.ctl 55 54 ≠ c then ReqOut.ends s 2 d.handle
  else if s.appendOpen i d.handle then ReqOut.ends s 3 d.handle
  else if 16777216 ≤ bits r.ctl 48 24 then ReqOut.ends s 4 d.handle
  else if long then ReqOut.ends s 7 d.handle
  else
    some ((0, d.handle, true), s.putRecord i { r with
      ctl := Machine.setFld r.ctl 62 60 2, reqid := d.reqid, resaddr := d.resaddr, idig := sha384 (input.take d.inlen) })

/-- APPEND (R350). -/
def execAppend (p c : Nat) (s : State) : Res :=
  onRing p c s (s.onRequest p c 2 (fun d input s => match s.named p d.handle with
    | .bad => ReqOut.ends s 1 d.handle
    | .away => none
    | .here i => s.appendTo c i d input))

/-- CLOSE (R362). -/
def execClose (p c : Nat) (s : State) : Res :=
  onRing p c s (s.onRequest p c 3 (fun d _ s => match s.named p d.handle with
    | .bad => ReqOut.ends s 1 d.handle
    | .away => none
    | .here i => ReqOut.ends (s.closeRecord i) 0 d.handle))

/-- ROLL of the stream of record i: a new record with its CLASS, home and entry and its committed state; then it closes. -/
def State.rollStream (s : State) (p i : Nat) (d : ReqDesc) : ReqOut :=
  let r := s.stream i
  if s.appendOpen i d.handle then ReqOut.ends s 3 d.handle
  else if !s.mayOpen p then ReqOut.ends s 5 d.handle
  else match s.openRecord p (bits r.ctl 55 54) (bits r.slot 39 32) (bits d.handle 63 58) d.key
      (fun b s => s.gaBytes (s.ltGroup (bits r.slot 39 32)) p (stateAt b (bits r.slot 31 0) (bits r.ctl 53 53)) b.stSize) with
    | some (h, s) => ReqOut.ends (s.closeRecord i) 0 h
    | none => ReqOut.ends s 5 d.handle

/-- ROLL (R350). -/
def execRoll (p c : Nat) (s : State) : Res :=
  onRing p c s (s.onRequest p c 4 (fun d _ s => match s.named p d.handle with
    | .bad => ReqOut.ends s 1 d.handle
    | .away => none
    | .here i => s.rollStream p i d))

/-! ### Acceptance (R354, R361) -/

/-- The accepted APPEND of a record joins the open batch of its entry, its deadline counted from now. -/
def State.acceptAppend (s : State) (f : Fetched) (h : Word) : State :=
  let i := bits h 57 40
  let r := s.stream i
  let dl : Nat := if f.desc.dlrel = 0 then 2 ^ 64 - 1 else (s.tally + f.desc.dlrel) % 2 ^ 64
  let a : PendApp :=
    { part := f.part, idx := i, handle := h, reqid := f.desc.reqid, resaddr := f.desc.resaddr, cls := bits r.ctl 55 54,
      lte := bits r.slot 39 32, deadline := dl, order := s.gate.accepted, input := f.input.take f.desc.inlen, hostReset := false }
  let s := s.putRecord i { r with deadline := BitVec.ofNat 64 dl }
  { s with gate := { s.gate with appends := s.gate.appends ++ [a], accepted := s.gate.accepted + 1 } }

/-- The result of a request that writes no crumb. -/
def plainResult (f : Fetched) (status : Nat) (h : Word) : ResultRec :=
  { part := f.part, reqid := f.desc.reqid, handle := h, status := status, late := false, pos := 0, audseq := 0, writes := [] }

/-- The mirror message of an acceptance: kind 2, the ring, its HEAD, and the outcome of a request that writes no crumb (log 18). -/
def acceptBody (f : Fetched) (head status : Nat) (h : Word) (app : Bool) : List Byte :=
  bytesLE 2 1 ++ bytesLE f.part 1 ++ bytesLE f.ring 1 ++ bytesLE head 4 ++ bytesLE app.toNat 1 ++ bytesLE status 2 ++
    bytesLE f.desc.reqid.toNat 8 ++ bytesLE h.toNat 8

/-- The head descriptor of ring (p, c) is accepted with an outcome: HEAD advances, and is mirrored. -/
def State.accept (s : State) (f : Fetched) (status : Nat) (h : Word) (app : Bool) : State :=
  let off := rqOff f.part f.ring 2
  let head := (s.fld off 31 0 + 1) % 2 ^ 32
  let s := (s.setFld off 31 0 head).mirror (acceptBody f head status h app)
  let s := { s with gate := { s.gate with fetched := s.gate.fetched.erase f } }.noteHub 0x36 f.part 1
  if app then s.acceptAppend f h
  else { s with gate := { s.gate with results := s.gate.results ++ [plainResult f status h] } }

/-- REQUEST_ACCEPT (R354): requests of one ring in ring order, an APPEND once its record is mirrored; a descriptor with a
reserved code or bit completes with BAD_OP. -/
def execRequestAccept (p c : Nat) (s : State) : Res :=
  onRing p c s (match s.fetchedOf p c with
    | [] => s
    | f :: _ =>
        if !s.gwActive then s
        else match f.done with
          | some (st, h, app) => if app && s.unmirrored (bits h 57 40) then s else s.accept f st h app
          | none => if reqBad f.desc then s.accept f 2 f.desc.handle false else s)

/-- RECORD_RETIRE (R362): a retiring record that no batch names becomes free. -/
def execRecordRetire (i : Nat) (s : State) : Res :=
  onIndex i 262144 s (
    let r := s.stream i
    let named := s.gate.appends.any (fun a => a.idx == i) || s.gate.frozen.any (fun f => f.slots.any (fun x => x.2.idx == i))
    if bits r.ctl 62 60 ≠ 4 || named then s
    else
      let p := bits r.ctl 59 56
      let ctl := Machine.setFld (Machine.setFld r.ctl 62 60 0) 23 0 (bits r.ctl 23 0 + 1)
      ((s.putRecord i { r with ctl := ctl }).moveStat 42 0).setFld (partOff p 4) 20 0 (s.fld (partOff p 4) 20 0 - 1))

/-! ### The commit (R370, R434-R436) -/

/-- Is the bake of the frozen batch void, its group aborted and not replayed? -/
def State.voided (s : State) (f : Frozen) : Bool :=
  s.aborts.any (fun a => a.bakes.any (fun b => b.lte == some f.lte && b.seq == f.seq))

/-- The consecutive aborts of a bake before its commit. -/
def State.rcntOf (s : State) (e seq : Nat) : Nat :=
  let x := Tab.get (fun _ => (0, 0)) s.rcnt (rcntKey (s.ltGroup e) (some e))
  if x.1 = seq then x.2 else 0

/-- The record of a committed slot (R370 step 1): NPOS + 1, GB flipped, AUDSEQ + 1 and STATE idle, no APPEND pending. -/
def StreamRec.committed (r : StreamRec) : StreamRec :=
  let ctl := Machine.setFld (Machine.setFld (Machine.setFld r.ctl 62 60 1) 53 53 (1 - bits r.ctl 53 53)) 48 24 (bits r.ctl 48 24 + 1)
  { r with ctl := ctl, audseq := r.audseq + 1, deadline := BitVec.ofNat 64 (2 ^ 64 - 1) }

/-- One slot of a committed batch (R370 steps 2 and 3): its record takes its new values, its crumb is written, its result queued. A
takeover has the result's digest from the mirror (log 18). LATE tells that the commit was applied after the deadline (R355). -/
def State.commitSlot (s : State) (f : Frozen) (d : BatchDecl) (a : PendApp) (odig : Option (List Byte)) : State :=
  let r := s.stream a.idx
  let late := decide (r.deadline.toNat < s.tally)
  let pos := bits r.ctl 48 24
  let rsz := roundUp d.resSize 64
  let x := s.gaBytes (s.ltGroup f.lte) a.part r.resloc.toNat rsz
  let s := x.2.setStream a.idx r.committed
  let s := if s.gate.closing.contains a.idx then
      ({ s with gate := { s.gate with closing := s.gate.closing.erase a.idx } } : State).retireRecord a.idx else s
  let y := s.writeCrumb (f.found.getD s.tally)
    { part := a.part, reqid := a.reqid, strm := r, bseq := f.seq, audseq := r.committed.audseq.toNat, rcnt := s.rcntOf f.lte f.seq,
      late := late, dbg := f.dbg, pos := pos, cls := a.cls, odig := odig.getD (sha384 x.1),
      rkd := (f.rkd.map (fun w => bytesLE w.toNat 8)).flatten }
  let s := y.2.noteHub 0x3D a.part late.toNat
  let res : ResultRec :=
    { part := a.part, reqid := a.reqid, handle := a.handle, status := if a.hostReset then 8 else 0, late := late, pos := pos,
      audseq := r.committed.audseq,
      writes := if a.hostReset then [] else [(a.resaddr.toNat, x.1), (a.resaddr.toNat + rsz, y.1)] }
  { s with gate := { s.gate with results := s.gate.results ++ [res] } }

/-- The oldest frozen batch of an entry. -/
def State.oldestFrozen (s : State) (e : Nat) : Option Frozen :=
  (s.gate.frozen.filter (fun f => f.lte == e)).foldl (fun (b : Option Frozen) f => match b with
    | none => some f
    | some x => if f.seq < x.seq then some f else some x) none

/-- The completion words of a bake as the commit engine reads them: do all hold its SEQ (R370)? -/
def State.wordsDone (s : State) (f : Frozen) (d : BatchDecl) : Bool × State :=
  let x := s.gaBytes (s.ltGroup f.lte) (s.ltPart f.lte) (s.wordAt f.lte d.ncmt f.seq 0) (8 * d.ncmt)
  (x.1 == (List.replicate d.ncmt (bytesLE f.seq 8)).flatten, x.2)

/-- The commit is at its step f in the batches frozen. -/
def State.setFound (s : State) (f : Frozen) (found : Option Nat) : State :=
  { s with gate := { s.gate with frozen := s.gate.frozen.map (fun g => if g = f then { g with found := found } else g) } }

/-- Step 1 of the commit (R370, R438): to the mirror go the results' digests, the message of kind 4 with TALLY, the CSEQ of the first
crumb and the chain value before it, and the new records (log 18). -/
def State.startCommit (s : State) (f : Frozen) : State :=
  let p := s.ltPart f.lte
  let digests := f.slots.foldl (fun (s : State) x =>
    match s.decl f.lte with
    | some d => s.mirror (bytesLE 5 1 ++ bytesLE x.2.idx 4 ++
        sha384 (s.gaBytes (s.ltGroup f.lte) p (s.stream x.2.idx).resloc.toNat (roundUp d.resSize 64)).1)
    | none => s) s
  let head := digests.mirror (bytesLE 4 1 ++ bytesLE f.lte 2 ++ bytesLE f.seq 8 ++ bytesLE s.tally 8 ++
    bytesLE ((s.reg (chainOff p 0)).toNat + 1) 8 ++ s.getDigest (chainOff p 1))
  (f.slots.foldl (fun (s : State) x => s.mirror (recordBody x.2.idx (s.stream x.2.idx).committed)) head).setFound f (some s.tally)

/-- Steps 2 and 3 of the commit (R370). -/
def State.applyCommit (s : State) (f : Frozen) (d : BatchDecl) (odig : Nat → Option (List Byte)) : State :=
  let s := { s with gate := { s.gate with frozen := s.gate.frozen.erase f } }
  let s := (s.setReg (ltOff f.lte 5) (BitVec.ofNat 64 f.seq)).noteHub 0x37 (s.ltPart f.lte) 1
  f.slots.foldl (fun (s : State) x => s.commitSlot f d x.2 (odig x.2.idx)) s

/-- The commit goes on to step 2 once the mirror has acknowledged every new record. -/
def State.goCommit (s : State) (f : Frozen) (d : BatchDecl) : State :=
  if f.slots.any (fun x => s.unmirrored x.2.idx) then s else s.applyCommit f d (fun _ => none)

/-- COMMIT (R370): the commit engine's look at the completion words of entry e in the tick in progress, and, once they have all been
found, at the mirror's acknowledgement. -/
def execCommit (e : Nat) (s : State) : Res :=
  onIndex e 256 s (match s.oldestFrozen e, s.decl e with
    | some f, some d =>
        if !s.gwActive || !s.streamReady || s.voided f then s
        else if f.found.isSome then s.goCommit f d
        else if f.start + 68 + s.fld (ltOff e 7) 31 0 ≤ s.tickNow then
          let x := s.wordsDone f d
          if x.1 then (x.2.startCommit f).goCommit { f with found := some s.tally } d else x.2
        else s
    | _, _ => s)

/-! ### Results (R348, R355, R356) -/

/-- Result descriptor of a result at index i of a ring of 2^lsize. -/
def resultBytes (r : ResultRec) (i lsize : Nat) : List Byte :=
  let ph := 1 - i / 2 ^ lsize % 2
  bytesLE r.reqid.toNat 8 ++ bytesLE r.handle.toNat 8 ++
    bytesLE (ph * 2 ^ 63 + r.status % 2 ^ 16 * 2 ^ 40 + r.late.toNat * 2 ^ 32 + r.pos % 2 ^ 24) 8 ++ bytesLE r.audseq.toNat 8

/-- The interrupt of a partition's result ring. -/
def State.signalResults (s : State) (p : Nat) : State :=
  ({ s with gate := { s.gate with unsig := Tab.erase p s.gate.unsig } } : State).interrupt (some p) (s.fld (cqOff p 1) 42 32)

/-- A result written: data, descriptor, TAIL, and the interrupt that moderation calls for. -/
def State.writeResult (s : State) (p : Nat) (r : ResultRec) : State :=
  let cfg := s.reg (cqOff p 1)
  let lsize := bits cfg 4 0
  let tail := s.fld (cqOff p 2) 63 32
  let at_ := (s.reg (cqOff p 0)).toNat / 4096 * 4096 + 32 * (tail % 2 ^ lsize)
  let ws : List HostOut := (r.writes ++ [(at_, resultBytes r tail lsize)]).map (fun w => .write (some p) w.1 w.2)
  let next := (tail + 1) % 2 ^ 32
  let s := ({ s with hostOut := s.hostOut ++ ws, gate := { s.gate with results := s.gate.results.erase r } } : State).setFld (cqOff p 2) 63 32 next
  let s := s.mirror (bytesLE 3 1 ++ bytesLE p 1 ++ bytesLE next 4)
  let u := Tab.get (fun _ => (0, s.tally)) s.gate.unsig p
  if max 1 (bits cfg 31 16) ≤ u.1 + 1 then s.signalResults p
  else { s with gate := { s.gate with unsig := Tab.put p (u.1 + 1, u.2) s.gate.unsig } }

/-- RESULT_WRITE (R356): the oldest result of partition p, unless the ring is full. -/
def execResultWrite (p : Nat) (s : State) : Res :=
  onIndex p 16 s (match s.gate.results.find? (fun r => r.part == p) with
    | none => s
    | some r =>
        let cfg := s.reg (cqOff p 1)
        let held := (s.fld (cqOff p 2) 63 32 + 2 ^ 32 - s.fld (cqOff p 2) 31 0) % 2 ^ 32
        if s.rings && s.gwActive && bitAt cfg 63 && held != 2 ^ bits cfg 4 0 then s.writeResult p r else s)

/-- MSIX_MTIM_EXPIRY (R348): MTIM µs after the first descriptor not yet signalled, 25 ticks each. -/
def execMsixMtimExpiry (p : Nat) (s : State) : Res :=
  onIndex p 16 s (match Tab.find s.gate.unsig p with
    | some (n, t) =>
        let mtim := s.fld (cqOff p 1) 15 8
        if s.rings && decide (0 < n) && decide (0 < mtim) && decide (t + 25 * mtim ≤ s.tally) then s.signalResults p else s
    | none => s)

/-- A write of RQ[c].CFG (ring c) or of CQ.CFG (ring 3). Descriptors fetched from a ring taken out of use are dropped. -/
def State.writeRing (s : State) (p ring : Nat) (v : Word) : State :=
  let off := if ring = 3 then cqOff p 1 else rqOff p ring 1
  let new := match findReg moduleRegs off with
    | some (d, _) => d.write false (s.reg off) v
    | none => s.reg off
  let s := s.setReg off new
  if bitAt v 63 then s
  else if ring = 3 then
    { s.setReg (cqOff p 2) 0 with gate := { s.gate with unsig := Tab.erase p s.gate.unsig } }
  else ((s.setFld off 62 62 0).setReg (rqOff p ring 2) 0).dropFetched (fun f => f.part == p && f.ring == ring)

/-- RING_ENABLE_WRITE (R348). -/
def execRingEnableWrite (p ring : Nat) (v : BitVec 64) (s : State) : Res :=
  .next (if p < 16 ∧ ring < 4 ∧ s.rings then s.writeRing p ring v else s)

/-! ### Resets of the endpoint (R375, R419, R460) -/

/-- The MSI-X state of a function at its reset value (R375). -/
def State.resetMsix (s : State) (vf : Option Nat) : State :=
  let f := msixKey vf 0 / 256
  { s with gate := { s.gate with msix := s.gate.msix.filter (fun x => x.1 / 256 != f)
                                 pends := s.gate.pends.filter (fun k => k / 128 != f) } }

/-- A Function Level Reset of a partition's VF. -/
def State.flr (s : State) (p : Nat) : State :=
  let s := s.dropFetched (fun f => f.part == p)
  let g := s.gate
  let hit (a : PendApp) : PendApp := if a.part == p then { a with hostReset := true } else a
  let g := { g with
    appends := g.appends.map hit
    frozen := g.frozen.map (fun f => { f with slots := f.slots.map (fun x => (x.1, hit x.2)) })
    results := g.results.map (fun r => if r.part == p then { r with status := 8, writes := [] } else r)
    unsig := Tab.erase p g.unsig }
  let offs := ([0, 1, 2].map (fun c => [rqOff p c 0, rqOff p c 1, rqOff p c 2])).flatten ++ [cqOff p 0, cqOff p 1, cqOff p 2]
  (offs.foldl (fun (s : State) o => s.setReg o 0) { s with gate := g }).resetMsix (some p)

/-- FLR_VF (R375), of a VF that the endpoint presents and the host has enabled (R341). -/
def execFlrVf (p : Nat) (s : State) : Res := onIndex p 16 s (if s.vfOn p then s.flr p else s)

/-- Every HUB.APER, HUB.VAPER and HUB.LTPATCH at reset. -/
def State.clearApertures (s : State) : State :=
  { s with regs := s.regs.filter (fun e => !(decide (0x2000 ≤ e.1) && decide (e.1 < 0x2400)) &&
      !(decide (0x318000 ≤ e.1) && decide (e.1 < 0x320000))) }

/-- FLR_PF (R375): HOST falls until it is complete (R419). -/
def execFlrPf (s : State) : Res :=
  .next (
    let was := s.hostReady
    let s := ((s.setReady 0x430010 63 false).updateRings)
    let s := (((List.range 16).foldl State.flr s).resetMsix none).clearApertures
    (s.setReady 0x430010 63 was).updateRings)

/-- The link leaves L0: HOST falls, and no VF is enabled until the host has enabled it anew (PCIe; PRESUMED, log 50). -/
def State.linkOff (s : State) : State :=
  ({ s with gate := { s.gate with vfs := 0 } } : State).setReady 0x430010 63 false |>.updateRings

/-- HOST_LINK_UP (R419): the link is in L0; HOSTLINK must have been released, and the hub, or the module be in recovery
mode (R416). The host enables some VFs, of those that the endpoint has (R340, R341). -/
def execHostLinkUp (vfs : Nat) (s : State) : Res :=
  .next (
    let open_ := natBit s.boot.outputs 5 && (natBit s.boot.released 0 || s.recoveryMode)
    if open_ && s.boot.power then
      (({ s with gate := { s.gate with vfs := min vfs s.totalVfs } } : State).setReady 0x430010 63 true).updateRings
    else s)

/-- HOST_LINK_DOWN (R419). -/
def execHostLinkDown (s : State) : Res := .next s.linkOff

/-! ### The takeover (R376, R399) -/

/-- What the record of an accepted APPEND tells of it; the mirrored input is a free value (log 18). -/
def State.appendOf (s : State) (i : Nat) (r : StreamRec) (order : Nat) : PendApp × State :=
  let e := bits r.slot 39 32
  let n := ((s.decl e).map (fun d => d.inSize)).getD 0
  let input : List Byte := (List.range n).map (fun j => BitVec.ofNat 8 (Config.free (s.freeCtr + j)).toNat)
  ({ part := bits r.ctl 59 56, idx := i, handle := handleOf s.primaryGw i (bits r.ctl 23 0), reqid := r.reqid, resaddr := r.resaddr,
     cls := bits r.ctl 55 54, lte := e, deadline := r.deadline.toNat, order := order, input := input, hostReset := false },
   { s with freeCtr := s.freeCtr + n })

/-- A request joins the frozen batch of a bake, in slot n. -/
def State.joinBatch (s : State) (a : PendApp) (seq n : Nat) : State :=
  if s.gate.frozen.any (fun f => f.lte == a.lte && f.seq == seq) then
    { s with gate := { s.gate with frozen := s.gate.frozen.map (fun f =>
      if f.lte == a.lte && f.seq == seq then { f with slots := f.slots ++ [(n, a)] } else f) } }
  else
    let l := (Tab.get (fun _ => []) s.launches a.lte).find? (fun (q : LaunchRec) => q.seq == seq)
    let f : Frozen := { lte := a.lte, seq := seq, start := s.tickNow, slots := [(n, a)], rkd := (l.map (fun q => q.rkd)).getD [],
                        dbg := (l.map (fun q => q.dbg)).getD false }
    { s with gate := { s.gate with frozen := s.gate.frozen ++ [f] } }

/-- The slot, of both buffers counted on, whose result area a record of a frozen batch names (R368). -/
def State.slotOfRecord (s : State) (r : StreamRec) : Option Nat :=
  match bits r.ctl 62 60, s.decl (bits r.slot 39 32) with
  | 3, some d => d.resLoc.findIdx? (fun l => l == r.resloc)
  | _, _ => none

/-- A mirrored record with an APPEND pending joins the open batch, or the frozen one that its RESLOC belongs to: that of bake seq,
or of the last bake that read that buffer. -/
def State.regain (s : State) (i : Nat) (r : StreamRec) (seq : Option Nat) : State :=
  let x := s.appendOf i r s.gate.accepted
  let a := x.1
  let s : State := { x.2 with gate := { x.2.gate with accepted := x.2.gate.accepted + 1 } }
  let nslot := s.ltSlots a.lte
  match s.slotOfRecord r with
  | some n =>
      let last := if s.ltSeq a.lte % 2 = n / nslot then s.ltSeq a.lte else s.ltSeq a.lte - 1
      s.joinBatch a (seq.getD last) (n % nslot)
  | none => { s with gate := { s.gate with appends := s.gate.appends ++ [a] } }

/-- The alternate gateway forms the crumbs and the results of a commit of bake seq of entry e, which the primary had begun, from its
mirrored records (R438): tally, the CSEQ of the first crumb and the chain value before it are those of the message. -/
def State.mirroredCommit (s : State) (e seq tally cseq : Nat) (prev : List Byte) (digests : List (Nat × List Byte)) : State :=
  match s.decl e with
  | none => s
  | some d =>
      let nslot := s.ltSlots e
      let mine := (s.gate.streams.filterMap (fun x =>
        if bits x.2.slot 39 32 = e then (s.slotOfRecord x.2).bind (fun n => if n / nslot = seq % 2 then some (n, x.1) else none) else none)).insertionSort
          (fun a b => a.1 ≤ b.1)
      let p := s.ltPart e
      let s := (s.setReg (chainOff p 0) (BitVec.ofNat 64 (cseq - 1))).putDigest (chainOff p 1) prev
      let s := mine.foldl (fun (s : State) x => s.regain x.2 (s.stream x.2) (some seq)) s
      match s.gate.frozen.find? (fun f => f.lte == e && f.seq == seq) with
      | some f =>
          (s.setFound f (some tally)).applyCommit { f with found := some tally } d
            (fun i => (digests.find? (fun x => x.1 == i)).map (fun x => x.2))
      | none => s

/-- What the messages of the mirror tell besides the state that they change: the digests of results, and the records whose APPEND
has been accepted. -/
structure MirrorNotes where
  digests : List (Nat × List Byte) := []
  accepted : List Nat := []
deriving DecidableEq, Repr

/-- One message of the mirror takes effect (log 18): a record, a ring's HEAD with the result of a request that writes no crumb, CQ
TAIL, a result's digest, a commit, or a piece of a key record. -/
def State.applyMirror (x : State × MirrorNotes) (body : List Byte) : State × MirrorNotes :=
  let s := x.1
  let n (i k : Nat) : Nat := natLE (slice body i k)
  match n 0 1 with
  | 1 =>
      let r := StreamRec.ofBytes (body.drop 5)
      (s.setStream (n 1 4) r, if bits r.ctl 62 60 = 1 then { x.2 with accepted := x.2.accepted.filter (fun i => i != n 1 4) } else x.2)
  | 2 =>
      let s := s.setFld (rqOff (n 1 1) (n 2 1) 2) 31 0 (n 3 4)
      let r : ResultRec :=
        { part := n 1 1, reqid := BitVec.ofNat 64 (n 10 8), handle := BitVec.ofNat 64 (n 18 8), status := n 8 2, late := false, pos := 0,
          audseq := 0, writes := [] }
      if n 7 1 = 0 then ({ s with gate := { s.gate with results := s.gate.results ++ [r] } }, x.2)
      else (s, { x.2 with accepted := x.2.accepted ++ [bits r.handle 57 40] })
  | 3 =>
      let s := s.setFld (cqOff (n 1 1) 2) 63 32 (n 2 4)
      ({ s with gate := { s.gate with results := s.gate.results.eraseP (fun r => r.part == n 1 1) } }, x.2)
  | 4 => (s.mirroredCommit (n 1 2) (n 3 8) (n 11 8) (n 19 8) (slice body 27 48) x.2.digests, { x.2 with digests := [] })
  | 5 => (s, { x.2 with digests := x.2.digests ++ [(n 1 4, slice body 5 48)] })
  | 9 =>
      let ka := 0x445400 + 0x10 * n 1 1
      let s := s.dramPut ((s.reg ka).toNat + n 2 4) (body.drop 6)
      (s.setFld (ka + 8) 31 0 (n 2 4 + (body.length - 6)), x.2)
  | _ => x

/-- A mirrored record at a takeover: one with an accepted APPEND is regained, one whose APPEND the primary had not accepted is idle
again, as its descriptor will be fetched anew (R354, R376). -/
def State.takeRecord (s : State) (accepted : List Nat) (i : Nat) (r : StreamRec) : State :=
  match bits r.ctl 62 60 with
  | 3 => s.regain i r none
  | 2 => if accepted.contains i then s.regain i r none else s.putRecord i r.unpended
  | _ => s

/-- GATEWAY_TAKEOVER (R376): the alternate gateway sets ACTIVE and goes on from what the primary has mirrored. -/
def execGatewayTakeover (s : State) : Res :=
  .next (if s.gwRole ≠ 2 || s.gwActive then s
    else
      let s := s.setFld 0x100 61 61 1
      let ms := s.fab.sysIn.filter (fun (f : Flit) => f.type == 7 && f.srcmod == s.primaryGw)
      let x := ms.foldl (fun (x : State × MirrorNotes) f => State.applyMirror x f.body) (s, {})
      x.1.gate.streams.foldl (fun (s : State) r => s.takeRecord x.2.accepted r.1 r.2) x.1)

/-! ### Apertures (R345) -/

/-- The bytes that a read returns. -/
def State.hostData (s : State) (bs : List Byte) : State := { s with hostOut := s.hostOut ++ [.data bs] }

/-- A host access to storage of this module or of another: DRAM by the pool slots, scratchpads by EXT-U, another module by
the unscheduled class; spaces 3 and 4 at once, and written only while HWEN = 1 (R344). -/
def State.hostAccess (s : State) (p : Nat) (a : Word) (write : Option (List Byte)) (len : Nat) (put : Nat → List Byte → State → State) : State :=
  let n := match write with
    | some bs => bs.length
    | none => len
  let zero (s : State) : State := if write.isNone then s.hostData (List.replicate n 0) else s
  match s.placeAt a with
  | .dram m b _ =>
      if !s.memReady m then zero (s.memFault 0 p)
      else
        let rq (l : Nat × Nat × Nat × Nat) : DramReq :=
          { ready := s.now, line := l.1, off := l.2.1, len := l.2.2.1, write := write.map (fun bs => slice bs l.2.2.2 l.2.2.1),
            for_ := .host, group := 0, gen := 0, part := p }
        s.enqueueDram m 16 s.me ((linesOf b n).map rq)
  | .spad u b _ => (match s.key u with
      | some key =>
          let c := s.coreAt key
          s.setCoreAt key { c with extU := c.extU ++ [{ addr := b, len := n, write := write, for_ := .host }] }
      | none => zero s)
  | .away m sp off =>
      if sp = 0 || sp = 1 || sp = 3 || sp = 4 then
        let f : Flit := { emptyFlit with type := if write.isSome then 1 else 2, cls := 1, part := p, srcmod := s.me, dstmod := m, space := sp,
                                         off := off, len := n - 1, srcu := hostSrcu, sent := s.cycle % 2 ^ 24 }
        match write with
        | some bs => s.sendFlits none (dataFlits f bs)
        | none => s.sendFlits none [f]
      else zero s
  | .shut sp off =>
      let base := if sp = 3 then 0x2000000 + off else off
      (match write with
        | some bs => if s.fld 0x108 63 63 = 1 then put base bs s else s.setFld 0x108 31 0 (s.fld 0x108 31 0 + 1)
        | none => (s.ctlRead base n).2.hostData (s.ctlRead base n).1)
  | .nowhere _ _ => zero s

/-- The register of an aperture, if it exists: PF BAR4 outside recovery mode (R417), and BAR2 of each VF that is there (R341). -/
def State.apertureReg (s : State) (r : ApertureReq) : Option Nat :=
  match r.vf with
  | none => if r.index < 64 && !s.recoveryMode then some (0x2000 + 8 * r.index) else none
  | some p => if s.vfOn p && decide (r.index < 4) then some (0x2200 + 0x20 * p + 8 * r.index) else none

end Sys2Proof.Machine
end

