-- ==== Sys2Proof/Machine/Bringup.lean ====
section
/-! DEFINITION. Bring-up (spec/14, spec/16 R454-R456): the boot record and the checks of a starter image, the start-up
sequencer, management cores, the mailbox and negotiation, recovery, admission and the travel-time table: the commands
INPUT_POWER_LOSS to TRAVEL_PUBLISH and RECOVERY_BAR2_ACCESS. -/
namespace Sys2Proof.Machine

/-! ### The NV die and the boot record (R405, R406) -/

def State.putNv (s : State) (a : Nat) (bs : List Byte) : State :=
  { s with boot := { s.boot with nv := Memory.setBytes s.boot.nv a bs } }
def State.nvBytes (s : State) (a n : Nat) : List Byte := Memory.bytes s.boot.nv a n

/-- Where a slot starts, and its size: A (0), B (1), recovery (2). -/
def slotBase (i : Nat) : Nat := i * 0x5000000
def slotSize (i : Nat) : Nat := if i = 2 then 0x4000000 else 0x5000000

/-- What the boot record says. -/
structure BootRec where
  copy : Nat
  seq : Nat
  active : Nat
  pending : Nat
  tries : Nat
deriving DecidableEq, Repr

/-- A copy of the boot record, if it is valid. A PENDING that names the ACTIVE slot is taken as 0 (R407). -/
def State.recCopy (s : State) (i : Nat) : Option BootRec :=
  let b := s.nvBytes (0xE000000 + 0x1000 * i) 64
  let n (k l : Nat) : Nat := natLE (slice b k l)
  if n 0 4 = 0x52424B50 ∧ n 60 4 = crc32c (b.take 60) then
    let act := min 1 (n 8 1)
    let pend := if n 9 1 ≤ 2 ∧ n 9 1 ≠ act + 1 then n 9 1 else 0
    some ⟨i, n 4 4, act, pend, n 10 1⟩
  else none

/-- The record in force; ACTIVE = 0 and PENDING = 0 where no copy is valid. -/
def State.bootRec (s : State) : BootRec :=
  match s.recCopy 0, s.recCopy 1 with
  | some a, some b => if a.seq < b.seq then b else a
  | some a, none => a
  | none, some b => b
  | none, none => ⟨1, 0, 0, 0, 0⟩

/-- The record written to the copy that is not in force. -/
def State.writeRec (s : State) (active pending tries : Nat) : State :=
  let r := s.bootRec
  let b : List Byte := bytesLE 0x52424B50 4 ++ bytesLE (r.seq + 1) 4 ++ bytesLE active 1 ++ bytesLE pending 1 ++ bytesLE tries 1 ++
    List.replicate 49 0
  s.putNv (0xE000000 + 0x1000 * (1 - r.copy)) (b ++ bytesLE (crc32c b) 4)

/-! ### Starter images (R408-R412) -/

/-- A section of an image. -/
structure Sect where
  type : Nat
  inst : Nat
  off : Nat
  bytes : List Byte
  digest : List Byte
  zero : Bool
  fits : Bool
deriving DecidableEq, Repr

/-- The sections of a body. -/
def sectionsOf (body : List Byte) (nsec : Nat) : List Sect :=
  (List.range nsec).map (fun i =>
    let e := slice body (64 * i) 64
    let n (k l : Nat) : Nat := natLE (slice e k l)
    { type := n 0 2, inst := n 2 2, off := n 8 4, bytes := slice body (n 8 4) (n 12 4), digest := slice e 16 48,
      zero := n 4 4 == 0, fits := n 8 4 % 64 == 0 && decide (64 * nsec ≤ n 8 4) && decide (n 8 4 + n 12 4 ≤ body.length) })

/-- The bytes of a section of the body, if it has it. -/
def sectBytes (body : List Byte) (nsec type inst : Nat) : Option (List Byte) :=
  ((sectionsOf body nsec).find? (fun x => x.type == type && x.inst == inst)).map (fun x => x.bytes)

/-- The entries of a register-write list (R410). -/
def regList (bs : List Byte) : List (Nat × Word) :=
  (List.range (bs.length / 16)).map (fun i => (natLE (slice bs (16 * i) 8), BitVec.ofNat 64 (natLE (slice bs (16 * i + 8) 8))))

/-- May an entry of a list section write the offset (R409)? -/
def sectBlock (type off : Nat) : Bool :=
  let within (a n : Nat) : Bool := decide (a ≤ off) && decide (off < a + n)
  match type with
  | 2 => within 0 0x400000 || within 0x440000 0x10000
  | 3 => within 0x400800 0x200
  | 4 => off == 0x400020 || off == 0x400028 || off == 0x400030 || (List.range 8).any (fun m => off == memOff m 0x100)
  | _ => off == 0x410000 || within 0x411000 0x180 || off == 0x100 || off == 0x130 || off == 0x200000 || within 0x400000 0x10000

/-- The registers with ST fields that a list section must write (R410). -/
def sectNeeds (type : Nat) : List Nat :=
  match type with
  | 2 => (List.range 16).map (fun p => 0x1400 + 8 * p)
  | 3 => (List.range 23).map (fun i => 0x400800 + 8 * i)
  | 4 => [0x400020, 0x400030]
  | _ => [0x410000, 0x100, 0x130, 0x200000] ++ (List.range 24).map (fun p => fpOff p 0)

/-- Is a section as R409 and R410 ask? -/
def sectOk (x : Sect) : Bool :=
  let len := x.bytes.length
  let listOk (_ : Unit) : Bool :=
    len % 16 == 0 && (regList x.bytes).all (fun e => sectBlock x.type e.1) &&
      (sectNeeds x.type).all (fun o => (regList x.bytes).any (fun e => e.1 == o))
  x.zero && x.fits && sha384 x.bytes == x.digest && (match x.type with
    | 1 => decide (x.inst < 6) && decide (len ≤ 0x40000)
    | 2 => x.inst == 0 && listOk ()
    | 3 => x.inst == 0 && listOk ()
    | 4 => x.inst == 0 && listOk ()
    | 5 => x.inst == 0 && len == 96
    | 6 => x.inst == 0 && listOk ()
    | 7 => x.inst == 0 && len % 8 == 0 && decide (8 ≤ len) && decide (len ≤ 128)
    | 8 => x.inst == 0
    | 9 => x.inst == 0 && len % 32 == 0
    | 10 => x.inst == 0 && len % 8 == 0 && decide (len ≤ 2048)
    | _ => false)

/-- Check 7 of R412: the section table as a whole. -/
def tableOk (body : List Byte) (nsec : Nat) : Bool :=
  let l := sectionsOf body nsec
  let ix := l.zipIdx
  let has (type inst : Nat) : Bool := l.any (fun x => x.type == type && x.inst == inst)
  decide (64 * nsec ≤ body.length) && l.all sectOk && (List.range 6).all (fun i => has 1 i) && [2, 3, 4, 6, 7, 8, 9].all (fun t => has t 0) &&
    ix.all (fun a => ix.all (fun b => a.2 == b.2 ||
      (!(a.1.type == b.1.type && a.1.inst == b.1.inst) &&
        (decide (a.1.off + a.1.bytes.length ≤ b.1.off) || decide (b.1.off + b.1.bytes.length ≤ a.1.off)))))

/-- The sequencer entries of a SEQ section, up to the first with V = 0. -/
def seqEntries (bs : List Byte) : List Word :=
  ((List.range (bs.length / 8)).map (fun i => (BitVec.ofNat 64 (natLE (slice bs (8 * i) 8)) : Word))).takeWhile (fun w => bitAt w 63)

def seqStep (w : Word) : Nat := bits w 62 60
def seqMask (w : Word) : Nat := bits w 55 48

/-- The domains to which a step applies (R414). -/
def stepDomains (step : Nat) : List Nat :=
  match step with
  | 0 => [0, 1, 2, 3, 4, 5, 6, 7]
  | 1 => [1, 2, 3, 4, 5, 6, 7]
  | 2 => [0, 1, 2, 3, 4, 5]
  | 3 => [0, 1, 2, 3, 4]
  | _ => []

/-- The places of a step of a domain in a sequence. -/
def seqAt (l : List Word) (step dom : Nat) : List Nat :=
  (l.zipIdx.filter (fun x => seqStep x.1 == step && natBit (seqMask x.1) dom)).map (fun x => x.2)

/-- Check 8 of R412: R415. -/
def seqOk (l : List Word) (topo : Nat) : Bool :=
  let before (s1 d1 s2 d2 : Nat) : Bool := decide (((seqAt l s1 d1).headD 99) < ((seqAt l s2 d2).headD 0))
  l.all (fun w => decide (seqStep w ≤ 4) &&
    (seqStep w == 4 || (List.range 8).all (fun d => !natBit (seqMask w) d || (stepDomains (seqStep w)).contains d))) &&
    [0, 1, 2, 3].all (fun st => (stepDomains st).all (fun d => (seqAt l st d).length == 1)) &&
    [1, 2].all (fun st => (stepDomains st).all (fun d => before 0 d st d)) &&
    (stepDomains 3).all (fun d => before 2 d 3 d) &&
    (topo == 0 || [1, 2, 3, 4].all (fun d => before 1 7 2 d))

/-- The value that a list section gives a register: the last entry's. -/
def listValue (body : List Byte) (nsec type off : Nat) : Word :=
  ((((sectBytes body nsec type 0).map regList).getD []).reverse.find? (fun e => e.1 == off)).map (fun e => e.2) |>.getD 0

/-- TOPO as the FABRIC section gives it. -/
def imageTopo (body : List Byte) (nsec : Nat) : Nat := bits (listValue body nsec 6 0x410000) 39 32

/-- Does NCUR of the CLOCKS section lie between 32 and ceil of R330 (R331)? -/
def State.clocksOk (s : State) (body : List Byte) (nsec : Nat) : Bool :=
  let freq := listValue body nsec 4 0x400020
  let ceil := min (min (bits (listValue body nsec 6 0x200000) 55 48) (bits freq 39 32)) s.gradeCeil
  decide (32 ≤ bits freq 63 56) && decide (bits freq 63 56 ≤ ceil)

/-- An image in a slot: its header and plaintext body. -/
structure Image where
  header : List Byte
  body : List Byte
deriving DecidableEq, Repr

def Image.num (x : Image) (i n : Nat) : Nat := natLE (slice x.header i n)
def Image.nsec (x : Image) : Nat := x.num 0x1C 4

/-- The image in a slot, decrypted, and the reason code of the first check of R412 that fails, 0 if none does. -/
def State.checkSlot (s : State) (slot : Nat) : Nat × Image :=
  let h := s.nvBytes (slotBase slot) 512
  let n (i k : Nat) : Nat := natLE (slice h i k)
  let blen := n 0x18 4
  let form := n 0 4 == 0x504B5354 && n 4 2 == 1 && n 6 2 == 512 && (slice h 0xB5 331).all (fun b => b == 0) && decide (n 0x30 4 ≤ 1) &&
    blen % 64 == 0 && decide (1 ≤ n 0x1C 4) && decide (n 0x1C 4 ≤ 256) && decide (512 + blen + 96 ≤ slotSize slot)
  let signer := slice h 0x54 97
  let root := n 0x17 1
  let none_ : Image := ⟨h, []⟩
  if !form then (1, none_)
  else if n 0x10 4 < s.boot.svnFuses then (2, none_)
  else if 4 ≤ root || natBit s.boot.revoked root || sha384 signer != s.boot.rooth.getD root [] then (3, none_)
  else if !(n 0x16 1 == 0 || (n 0x16 1 == 1 && s.boot.keyValid)) then (4, none_)
  else
    let cipher := s.nvBytes (slotBase slot + 512) blen
    let sig := s.nvBytes (slotBase slot + 512 + blen) 96
    if !ecdsaVerify signer (sha384 (h ++ cipher)) sig then (5, none_)
    else
      let body := aesCtr (if n 0x16 1 = 0 then s.boot.fuseKey else s.boot.keyRam) (slice h 0x20 12) cipher
      let img : Image := ⟨h, body⟩
      if crc32c body ≠ n 0x2C 4 then (6, img)
      else if !(tableOk body img.nsec && s.clocksOk body img.nsec) then (7, img)
      else if !seqOk (seqEntries ((sectBytes body img.nsec 7 0).getD [])) (imageTopo body img.nsec) then (8, img)
      else (0, img)

/-! ### Required features (R429, R430) -/

/-- The functions, by their number in FEATREQ, with a required feature that the agreed map lacks. -/
def missOf (featreq amap : List Byte) : Nat :=
  ((List.range 95).map (fun n =>
    if ((slice featreq (32 * n) 32).zip amap).all (fun x => x.1 &&& ~~~x.2 == 0) then 0 else 2 ^ n)).foldl (· + ·) 0

/-- MGC.FEAT.STAT.MISS: bit n is that of ready bit 32 + n of MGC.READY0. -/
def missField (miss : Nat) : Nat :=
  ((List.range 32).map (fun n => if natBit miss (featIndex 0x430010 (32 + n)) then 2 ^ n else 0)).foldl (· + ·) 0

/-- The bytes of a section of the body in force. -/
def State.bodySect (s : State) (type : Nat) : List Byte := (sectBytes s.boot.body s.boot.nsec type 0).getD []

/-- The functions that lack a feature lose their ready bits. -/
def State.putMiss (s : State) (miss : Nat) : State :=
  let s := s.setFld 0x430480 31 0 (missField miss)
  let s := { s with boot := { s.boot with miss := miss } }
  let drop (off lo n : Nat) (s : State) : State :=
    (List.range n).foldl (fun (s : State) i => if s.lacks off (lo + i) then s.setReady off (lo + i) false else s) s
  drop 0x430010 17 47 (drop 0x430018 0 48 s)

/-! ### Cold reset and power (R454-R456) -/

/-- A cold reset: all but what NV die, fuses, key RAM, the silicon and the position straps hold returns to reset. -/
def State.coldReset (s : State) : State :=
  let keep := s.regs.filter (fun e => (coreBlock e.1).isNone && (List.range 48).any (fun c => e.1 == clOff (c / 12) (c % 12) 0))
  let b := s.boot
  let boot : Boot := { nv := b.nv, rooth := b.rooth, revoked := b.revoked, fuseKey := b.fuseKey, svnFuses := b.svnFuses,
                       keyRam := b.keyRam, keyValid := b.keyValid, resetHigh := b.resetHigh, power := b.power }
  let t : State := { State.reset with
    pending := s.pending, freeCtr := s.freeCtr, cores := (s.cores.map (fun e => (e.1, { Core.dflt e.1 with fctr := e.2.fctr }))).filter (fun e => e.2.fctr != 0),
    hostOut := s.hostOut, regs := (keep.map (fun e => (e.1, Machine.setFld (Machine.setFld e.2 24 23 0) 4 0 0))).filter (fun e => e.2 != regReset e.1),
    boot := boot, audit := { State.reset.audit with signed := s.audit.signed, drawn := s.audit.drawn + 1 } }
  t.setFld 0x400010 5 0 (s.fld 0x400010 5 0)

/-- A level of RESET_N accepted (R454): a low one is a cold reset; a high one starts a module whose rails have come back. -/
def State.resetLevel (s : State) (level : Bool) : State :=
  let t := if level && s.boot.power then s else s.coldReset
  { t with boot := { t.boot with resetHigh := level, power := s.boot.power || level } }

/-- The level of a sideband input is accepted (R454, R460, R461; pins by PAD index): PERST_N resets the endpoint only, and TRST_N
the test access port, which then holds IDCODE (IEEE 1149.1, log 16). -/
def State.acceptPin (s : State) (pin : Nat) (level : Bool) : State :=
  match pin, level with
  | 0, _ => s.resetLevel level
  | 10, false => s.linkOff
  | 15, false => s.jtagIs .idcode []
  | _, _ => s

/-- The ticks of 40 ns for which a new level must hold: FILT of the pin, or the fixed 10 µs of RESET_N (R339). -/
def State.filter (s : State) (pin : Nat) : Nat := if pin = 0 then 250 else s.fld (0x400800 + 8 * pin) 4 0

/-- A sideband input takes a level (R339): it is accepted at once with FILT = 0, else after the filter's time, unless the input changes
before. -/
def State.pinLevel (s : State) (pin : Nat) (level : Bool) : State :=
  let s := { s with cad := { s.cad with inputs := s.cad.inputs.filter (fun x => x.1 != pin) } }
  let n := s.filter pin
  if n = 0 then s.acceptPin pin level
  else { s with cad := { s.cad with inputs := s.cad.inputs ++ [(pin, level, n)] } }

/-- A tick of the filters: levels that have held long enough are accepted. -/
def State.filterTick (s : State) : State :=
  let due := s.cad.inputs.filter (fun x => decide (x.2.2 ≤ 1))
  let rest := (s.cad.inputs.filter (fun x => decide (1 < x.2.2))).map (fun x => (x.1, x.2.1, x.2.2 - 1))
  due.foldl (fun (s : State) x => s.acceptPin x.1 x.2.1) { s with cad := { s.cad with inputs := rest } }

/-- RESET_N (R454): the pin takes a level. -/
def execResetN (level : Bool) (s : State) : Res := .next (s.pinLevel 0 level)

/-- PERST_N (R460): the pin takes a level. -/
def execPerstN (level : Bool) (s : State) : Res := .next (s.pinLevel 10 level)

/-- TRST_N (R461): the pin takes a level. -/
def execTrstN (level : Bool) (s : State) : Res := .next (s.pinLevel 15 level)

/-- INPUT_POWER_LOSS (R455): the module-loss fault, the compute dies' clocks stop, and the module powers down. -/
def execInputPowerLoss (s : State) : Res :=
  .next (
    let s := (s.moduleLoss s.me 6).diesDown
    { s with cad := { s.cad with stopped := true }, boot := { s.boot with power := false } })

/-- VBAT_LOSS (R456). -/
def execVbatLoss (s : State) : Res := .next { s with boot := { s.boot with keyValid := false } }

/-! ### The choice of a slot (R407, R412, R416) -/

/-- Slots tried in order: the reason codes of those that fail, and the first that passes with its image. -/
def State.trySlots (s : State) : List Nat → List (Nat × Nat) × Option (Nat × Image)
  | [] => ([], none)
  | i :: l =>
      let r := s.checkSlot i
      if r.1 = 0 then ([], some (i, r.2))
      else
        let t := s.trySlots l
        ((i, r.1) :: t.1, t.2)

def mcOff (i : Nat) : Nat := 0x430200 + 0x10 * i
def State.mcState (s : State) (i : Nat) : Nat := s.fld (mcOff i) 61 59

/-- A management core runs its image: STATE, VER, its watchdog, and its ready bit. -/
def State.runMc (s : State) (ver : Word) (i : Nat) : State :=
  let s := (s.setFld (mcOff i) 61 59 2).setReg (mcOff i + 8) ver
  let s := { s with boot := { s.boot with kicks := Tab.put i s.tally s.boot.kicks, since := s.tally } }
  s.setReady 0x430010 (53 + i) true

/-- The sequencer comes to entry i, which runs if it is present (R414). -/
def State.startEntry (s : State) (i : Nat) : State :=
  if i < 16 && s.fld (0x430100 + 8 * i) 63 63 == 1 then s.setFld (0x430100 + 8 * i) 47 45 1 else s

/-- The logical cores that the UNITMAP section keeps out of every map: those whose bit is 0 (R409). -/
def unmapOf (body : List Byte) (nsec : Nat) : Nat :=
  match sectBytes body nsec 5 0 with
  | some bs => 2 ^ 768 - 1 - natLE (bs.take 96)
  | none => 0

/-- The image of a slot is booted: MGC.BOOT, the feature map, the sequence, and MC0. In recovery mode (R416) HOSTLINK and
SIDEBAND are all that is released. -/
def State.bootImage (s : State) (slot : Nat) (trial : Bool) (x : Image) : State :=
  let ver : Word := BitVec.ofNat 64 (x.num 8 8)
  let s := (((s.setFld 0x430000 63 62 slot).setFld 0x430000 61 61 trial.toNat).setFld 0x430000 47 32 (x.num 0x14 2)).setFld 0x430000 7 0
    (x.num 0x10 4)
  let s := (s.setReg 0x430008 ver).setFld 0x430480 47 32 (x.num 0x14 2)
  let s := (List.range 4).foldl (fun (s : State) j => s.setReg (0x430440 + 8 * j) (BitVec.ofNat 64 (x.num (0x34 + 8 * j) 8))) s
  let s := { s with boot := { s.boot with body := x.body, nsec := x.nsec, offMap := unmapOf x.body x.nsec } }
  let s := s.putMiss (missOf ((sectBytes x.body x.nsec 9 0).getD []) (slice x.header 0x34 32))
  let s := if slot = 2 then s
    else ((((sectBytes x.body x.nsec 7 0).map seqEntries).getD []).zipIdx.foldl (fun (s : State) w =>
      s.setReg (0x430100 + 8 * w.2) (Machine.setFld w.1 47 32 0)) s).startEntry 0
  (s.runMc ver 0).setReady 0x430010 59 true

/-- HOSTLINK and SIDEBAND released, for the recovery function. -/
def State.enterRecovery (s : State) : State :=
  let s := s.setFld 0x108 63 63 1
  { s with boot := { s.boot with released := 2 ^ 5 + 2 ^ 6, outputs := 2 ^ 5 } }

/-- BOOT_SLOT_CHOICE (R407): once after RESET_N is accepted. -/
def execBootSlotChoice (s : State) : Res :=
  .next (if s.boot.booted || !s.boot.resetHigh || !s.boot.power then s
    else
      let r := s.bootRec
      let trial := r.pending ≠ 0 ∧ r.tries < 2
      let s := if trial then s.writeRec r.active r.pending (r.tries + 1)
        else if r.pending ≠ 0 then s.writeRec r.active 0 0 else s
      let order := (if trial then [r.pending - 1, r.active] else [r.active, 1 - r.active]) ++ [2]
      let t := s.trySlots order
      let s := t.1.foldl (fun (s : State) f => s.setFld 0x430000 (59 - 4 * f.1) (56 - 4 * f.1) f.2) s
      let s := { s with boot := { s.boot with booted := true } }
      match t.2 with
      | some (slot, x) =>
          let s := s.bootImage slot (decide trial && slot + 1 == r.pending) x
          if slot = 2 then s.enterRecovery else s
      | none => (s.setReady 0x430010 59 true).enterRecovery)

/-- Do the NV die, the key RAM and the fuses take writes (R414)? -/
def State.hubWrites (s : State) : Bool := natBit s.boot.writable 0

/-- PENDING_CONFIRMATION (R407, R426): a trial boot in which every MC has been ready and a negotiation successful for 600 s
of 25 000 000 ticks. -/
def execPendingConfirmation (s : State) : Res :=
  .next (
    let slot := s.fld 0x430000 63 62
    if s.hubWrites && s.fld 0x430000 61 61 == 1 && s.fld 0x430010 58 53 == 63 && s.fld 0x430480 63 62 == 3 && decide (s.boot.since + 15000000000 ≤ s.tally) then
      let s := (s.writeRec slot 0 0).setFld 0x430000 61 61 0
      if natLE (s.nvBytes (slotBase slot + 0x30) 1) % 2 = 1 then
        { s with boot := { s.boot with svnFuses := max s.boot.svnFuses (min 64 (s.fld 0x430000 7 0)) } }
      else s
    else s)

/-! ### The start-up sequencer (R410, R414, R419) -/

/-- The fields with access code RO that the spec marks ST, by register: only the image sets them. -/
def stFields (off : Nat) : List (Nat × Nat) :=
  if off = 0x100 then [(63, 61), (53, 48)]
  else if off = 0x130 then [(63, 62), (59, 54)]
  else if off = 0x200000 then [(55, 48), (39, 24)]
  else if 0x200040 ≤ off ∧ off < 0x200070 then [(2, 0)]
  else if off = 0x400020 then [(63, 40)]
  else if off = 0x400030 then [(63, 61)]
  else if 0x400400 ≤ off ∧ off < 0x4005A8 then [(63, 56)]
  else if off = 0x410000 then [(39, 32), (5, 0)]
  else []

/-- A register-write entry applied: the fields that software writes, and the RO fields marked ST. -/
def State.loadEntry (s : State) (e : Nat × Word) : State :=
  if 0x4008B8 ≤ e.1 ∧ e.1 < 0x400A00 then s
  else match findReg moduleRegs e.1 with
    | some (d, _) =>
        let soft := d.fields.filterMap (fun f => if f.acc = .rw ∨ f.acc = .fw then some (f.hi, f.lo) else none)
        s.setReg e.1 ((soft ++ stFields e.1).foldl (fun (cur : Word) f =>
          Machine.setFld cur f.1 f.2 (Machine.fld e.2 f.1 f.2)) (s.reg e.1))
    | none => s

/-- The domain at whose release an entry is applied: a stack's with its die, every other with the hub. -/
def entryDomain (off : Nat) : Nat := if 0x480000 ≤ off ∧ off < 0x4A0000 then (off - 0x480000) / 0x4000 / 2 + 1 else 0

/-- The entries of the four list sections that belong to a domain. -/
def State.loadDomain (s : State) (dom : Nat) : State :=
  (([2, 3, 4, 6].map (fun t => regList (s.bodySect t))).flatten.filter (fun e => entryDomain e.1 == dom)).foldl State.loadEntry s

/-- Compute dies whose bit R419 now sets: released, TRAVEL valid and not stale (R212), a cluster ready. -/
def State.updateDies (s : State) : State :=
  (List.range 4).foldl (fun (s : State) d =>
    if natBit s.boot.released (d + 1) && s.fld 0x200000 63 62 == 2 && s.fld 0x430018 (12 * d + 11) (12 * d) != 0 then
      s.setReady 0x430010 (49 + d) true else s) s

/-- A domain is released from reset: its entries; the hub starts MC1-MC5 and the stream table, and on a solo module the tally,
whose next tick is tick 0 (R312); a compute die's clusters and spares are tested, those that pass zeroised, by the masks tested and
spares (bit 12d + k; R37, R410), and its stacks trained. -/
def State.releaseDomain (s : State) (dom tested spares : Nat) : State :=
  let s := s.loadDomain dom
  let s := { s with boot := { s.boot with released := nor s.boot.released (2 ^ dom) } }
  if dom = 0 then
    let s := s.setStat 58 (s.topo == 0)
    let s := if s.topo = 0 then { s with cad := { s.cad with walkIn := some 1 } } else s
    (([1, 2, 3, 4, 5].foldl (fun (s : State) i => s.runMc (s.reg 0x430008) i) s).setReady 0x430010 61 true).updateRings
  else if dom ≤ 4 then
    let d := dom - 1
    let s := (List.range 12).foldl (fun (s : State) k =>
      (s.setFld (clOff d k 0) 24 24 (natBit spares (12 * d + k)).toNat).setReady 0x430018 (12 * d + k) (natBit tested (12 * d + k))) s
    ((s.setReady 0x430010 (41 + 2 * d) true).setReady 0x430010 (42 + 2 * d) true).updateDies
  else s

/-- The step of an entry on one domain of its mask. -/
def State.seqDomain (s : State) (step tested spares dom : Nat) : State :=
  match step with
  | 1 => { s with boot := { s.boot with outputs := nor s.boot.outputs (2 ^ dom) } }
  | 2 => s.releaseDomain dom tested spares
  | 3 => { s with boot := { s.boot with writable := nor s.boot.writable (2 ^ dom) } }
  | _ => s

/-- Has the walk failed: it has run, and has not set WALKOK (R324)? -/
def State.walkFailed (s : State) : Bool := s.cad.walked && s.cad.walkIn.isNone && decide (16384 ≤ s.tally) && !s.stat 61

/-- Does a step of a domain wait in an installation: for the lock to CADENCE of a compute die or of RIDGE (R414), and for a compute
die's release until the walk has succeeded and LOCK and ALIGNED are set (R312)? -/
def State.stepWaits (s : State) (step dom : Nat) : Bool :=
  match step with
  | 0 => (decide (1 ≤ dom) && decide (dom ≤ 4) || dom == 7) && !s.stat 63
  | 2 => decide (1 ≤ dom) && decide (dom ≤ 4) && !(s.stat 63 && s.stat 62 && s.stat 61)
  | _ => false

/-- SEQUENCER_STEP (R414): entry i completes; lost names the domains whose lock has timed out or whose release has failed, tested and
spares the clusters and spares that pass the start-up test. Without a time limit no lock times out. A failed walk fails the release of
a compute die. -/
def execSequencerStep (i lost tested spares : Nat) (s : State) : Res :=
  onIndex i 16 s (
    let w := s.reg (0x430100 + 8 * i)
    let step := seqStep w
    let solo := imageTopo s.boot.body s.boot.nsec = 0
    let doms := (List.range 8).filter (fun d => natBit (seqMask w) d)
    let fails (d : Nat) : Bool := natBit lost d || (step == 2 && !solo && decide (1 ≤ d) && decide (d ≤ 4) && s.walkFailed)
    let late := doms.filter fails
    let waits := !solo && doms.any (fun d => !fails d && !natBit s.boot.failed d && s.stepWaits step d)
    if !s.boot.booted || s.recoveryMode || i ≠ s.boot.next || !bitAt w 63 || waits || (step == 0 && !late.isEmpty && bits w 31 0 == 0) then s
    else
      let new := if step = 0 || step = 2 then mask16 (fun d => late.contains d) else 0
      let s := { s with boot := { s.boot with failed := nor s.boot.failed new, next := i + 1 } }
      let bad := step != 4 && doms.any (fun d => natBit s.boot.failed d)
      let s := if step = 4 then s
        else (doms.filter (fun d => !natBit s.boot.failed d)).foldl (fun (s : State) d => s.seqDomain step tested spares d) s
      (s.setFld (0x430100 + 8 * i) 47 45 (if bad then 3 else 2)).startEntry (i + 1))

/-! ### Management cores (R421, R422) -/

/-- A management core is held in reset and reloaded from its image, whose version it will run (R422): twice within a second, of
25 000 000 ticks, it fails. A RESTART of a core that is loading or restarting is ignored. The core runs again with the next tick
(DESIGN CHOICE, log 69). -/
def State.restartMc (s : State) (ver : Word) (i : Nat) : State :=
  let st := s.mcState i
  if st ≠ 2 ∧ st ≠ 4 then s
  else
    let again := match Tab.find s.boot.restarts i with
      | some t => decide (s.tally < t + 25000000)
      | none => false
    let s := s.setFld (mcOff i) 55 48 (s.fld (mcOff i) 55 48 + 1)
    let s := (s.setReady 0x430010 (53 + i) false).updateRings
    let s := if i = 0 then s.setReady 0x430010 59 false else s
    let s := { s with boot := { s.boot with restarts := Tab.put i s.tally s.boot.restarts } }
    if again then s.setFld (mcOff i) 61 59 4
    else { s.setFld (mcOff i) 61 59 3 with boot := { s.boot with loading := s.boot.loading ++ [(i, ver)] } }

/-- The version that a core runs. -/
def State.mcVer (s : State) (i : Nat) : Word := s.reg (mcOff i + 8)

/-- MC_WATCHDOG (R422): the watchdog of MCi expires after WDT ms of 25 000 ticks without a KICK. -/
def execMcWatchdog (i : Nat) (s : State) : Res :=
  onIndex i 6 s (
    let wdt := s.fld (mcOff i) 47 32
    if s.mcState i = 2 && decide (0 < wdt) && decide (Tab.get (fun _ => 0) s.boot.kicks i + 25000 * wdt ≤ s.tally) then
      s.restartMc (s.mcVer i) i else s)

/-- KICK (R422): by MCi itself. -/
def State.kickMc (s : State) (i : Nat) : State :=
  if s.mcState i = 2 then { s with boot := { s.boot with kicks := Tab.put i s.tally s.boot.kicks } } else s

/-- KICK (R422). -/
def execKick (i : Nat) (s : State) : Res := onIndex i 6 s (s.kickMc i)

/-- MC_RESTART (R422). -/
def execMcRestart (i : Nat) (s : State) : Res := onIndex i 6 s (s.restartMc (s.mcVer i) i)

/-! ### The mailbox (R427) -/

/-- A response: word 0 of RSP, and the event. -/
def State.respond (s : State) (cmd tag status : Nat) : State :=
  (s.setReg 0x431800 (BitVec.ofNat 64 (cmd % 256 * 2 ^ 56 + tag % 256 * 2 ^ 48 + status * 2 ^ 32))).mailEvent

/-- Does MC0's ROM serve the command (R417)? -/
def romServes (cmd : Nat) : Bool := cmd == 0x11 || cmd == 0x12 || cmd == 0x40

/-- A mailbox request while MC0 runs, or its ROM: it is refused in recovery mode unless the ROM serves it, is malformed if its payload
has not the command's length, and else does what f says with its payload. -/
def State.mailbox (s : State) (cmd : Nat) (req : List Byte) (need : Nat) (f : List Byte → State → Nat × State) : State :=
  let len := natLE (req.take 4)
  let tag := natLE (slice req 6 1)
  if s.recoveryMode && !romServes cmd then s.respond cmd tag 1
  else if len ≠ need then s.respond cmd tag 2
  else
    let r := f (slice req 8 len) s
    r.2.respond cmd tag r.1

/-- NEGOTIATE's effect (R429). -/
def State.negotiate (s : State) (pl : List Byte) : Nat × State :=
  if (List.range 16).any s.partRun then (1, s)
  else
    let s := s.setReady 0x430010 62 false
    let eq := natLE (slice pl 40 2) == s.fld 0x430480 47 32
    let fmap := ((List.range 4).map (fun j => bytesLE (s.reg (0x430440 + 8 * j)).toNat 8)).flatten
    let amap : List Byte := if eq then (pl.zip fmap).map (fun x => x.1 &&& x.2) else List.replicate 32 0
    let hver := slice pl 32 8
    let tested := (chunks 8 256 (s.bodySect 10)).contains hver
    let s := (List.range 4).foldl (fun (s : State) j => s.setReg (0x430460 + 8 * j) (BitVec.ofNat 64 (natLE (slice amap (8 * j) 8)))) s
    let s := ((s.setFld 0x430480 63 63 1).setFld 0x430480 62 62 eq.toNat).setFld 0x430480 61 61 (!tested).toNat
    let s := { s with boot := { s.boot with hver := BitVec.ofNat 64 (natLE hver), since := s.tally } }
    (0, (s.putMiss (missOf (s.bodySect 9) amap)).updateRings)

/-- KEYLOAD's effect (R411). -/
def State.keyload (s : State) (pl : List Byte) : Nat × State :=
  match keyUnwrap s.boot.fuseKey pl with
  | some k => if s.hubWrites then (0, { s with boot := { s.boot with keyRam := k, keyValid := true } }) else (1, s)
  | none => (1, s)

/-- The slot of A and B that is not booted. -/
def State.spareSlot (s : State) : Nat := if s.fld 0x430000 63 62 = 0 then 1 else 0

/-- STAGE's effect (R425): bytes from DRAM into the slot not booted. -/
def State.stage (s : State) (pl : List Byte) : Nat × State :=
  let a := natLE (pl.take 8)
  let n := natLE (slice pl 8 8)
  let dram := match s.placeAt (BitVec.ofNat 64 a) with
    | .dram _ _ _ => true
    | .away _ 0 _ => true
    | _ => false
  if !s.hubWrites || !dram || decide (slotSize 0 < n) then (1, s)
  else
    let x := s.gaBytes 0 0 a n
    (0, x.2.putNv (slotBase s.spareSlot) x.1)

/-- R412 on a slot: its outcome is kept. -/
def State.verifySlot (s : State) (slot : Nat) : Nat × State :=
  let c := (s.checkSlot slot).1
  let rest := s.boot.passed.filter (fun x => x != slot)
  (c, { s with boot := { s.boot with passed := if c = 0 then rest ++ [slot] else rest } })

/-- A payload of one byte that names slot A or B, or is malformed. -/
def slotArg (pl : List Byte) (s : State) (f : Nat → Nat × State) : Nat × State :=
  let i := natLE pl
  if i < 2 then f i else (2, s)

/-- VERIFY's effect (R425): done if every check passes, else refused. -/
def State.verify (s : State) (slot : Nat) : Nat × State :=
  let r := s.verifySlot slot
  (if r.1 = 0 then 0 else 1, r.2)

/-- ACTIVATE's effect (R425): the slot not booted becomes pending. -/
def State.activate (s : State) (slot : Nat) : Nat × State :=
  if slot = s.fld 0x430000 63 62 || !(s.hubWrites || s.recoveryMode) then (1, s)
  else (0, s.writeRec s.bootRec.active (slot + 1) 0)

/-- Have two bodies the same digests in every section other than MCIMG? -/
def sameSections (a : List Byte) (na : Nat) (b : List Byte) (nb : Nat) : Bool :=
  let key (body : List Byte) (n : Nat) : List (Nat × Nat × List Byte) :=
    ((sectionsOf body n).filter (fun x => x.type != 1)).map (fun x => (x.type, x.inst, x.digest))
  (key a na).all (fun x => (key b nb).contains x) && (key b nb).all (fun x => (key a na).contains x)

/-- LIVE's effect (R425): MC5 restarts from the new slot, and the others follow one after the other (State.liveNext). -/
def State.live (s : State) (slot : Nat) : Nat × State :=
  let r := s.checkSlot slot
  if slot = s.fld 0x430000 63 62 || !s.hubWrites || s.boot.live.isSome || r.1 != 0 || r.2.num 0x14 2 != s.fld 0x430480 47 32 ||
      !sameSections s.boot.body s.boot.nsec r.2.body r.2.nsec then (1, s)
  else
    let ver : Word := BitVec.ofNat 64 (r.2.num 8 8)
    (0, ({ s with boot := { s.boot with body := r.2.body, nsec := r.2.nsec, live := some (slot, ver, [4, 3, 2, 1, 0]) } } : State).restartMc ver 5)

/-- RESTART's effect. -/
def State.mailRestart (s : State) (pl : List Byte) : Nat × State :=
  let i := natLE pl
  if i < 6 then (0, s.restartMc (s.mcVer i) i) else (2, s)

/-- ABORT's effect (R377): a host fault of class 6 that names the partitions of the mask. -/
def State.mailAbort (s : State) (pl : List Byte) : Nat × State :=
  (0, s.detect { cls := 6, unit := UnitForm.toId (.module s.me), parts := natLE pl, capture := none })

/-- RUN's effect (R427): a partition whose RUN is cleared has its head signed (R439). -/
def State.runMask (s : State) (mask value : Nat) : State :=
  ((List.range 16).filter (natBit mask)).foldl (fun (s : State) p =>
    let on := natBit value p
    let was := s.partRun p
    let s := s.setFld (partOff p 0) 62 62 on.toNat
    if was && !on && s.gwActive then s.startSign p else s) s

/-- A request by its command: the length of its payload and its effect; other commands are malformed. -/
def State.mailCmd (s : State) (cmd : Nat) (req : List Byte) : State :=
  match cmd with
  | 0x01 => s.mailbox cmd req 42 (fun pl s => s.negotiate pl)
  | 0x08 => s.mailbox cmd req 40 (fun pl s => s.keyload pl)
  | 0x10 => s.mailbox cmd req 16 (fun pl s => s.stage pl)
  | 0x11 => s.mailbox cmd req 1 (fun pl s => slotArg pl s s.verify)
  | 0x12 => s.mailbox cmd req 1 (fun pl s => slotArg pl s s.activate)
  | 0x13 => s.mailbox cmd req 1 (fun pl s => slotArg pl s s.live)
  | 0x20 => s.mailbox cmd req 1 (fun pl s => s.mailRestart pl)
  | 0x30 => s.mailbox cmd req 2 (fun pl s => s.mailAbort pl)
  | 0x31 => s.mailbox cmd req 4 (fun pl s => (0, s.runMask (natLE (pl.take 2)) (natLE (pl.drop 2))))
  | 0x40 =>
      let t := s.mailbox cmd req 0 (fun _ s => (0, s))
      if natLE (req.take 4) = 0 then t.coldReset else t
  | _ => s.mailbox cmd req (natLE (req.take 4)) (fun _ s => (2, s))

/-- A request submitted by the doorbell (R427): it is served by MC0, or by its ROM; while MC0 does not run it waits (R421), and a
further one is ignored and counted in RSP word 1. -/
def State.mailSubmit (s : State) (cmd : Nat) (req : List Byte) : State :=
  if s.mcReady 0 || s.recoveryMode then s.mailCmd cmd req
  else if s.boot.mail.isSome then s.setReg 0x431808 (s.reg 0x431808 + 1)
  else { s with boot := { s.boot with mail := some (req.take 7 ++ [BitVec.ofNat 8 cmd] ++ req.drop 8) } }

/-- MC0, running again, serves the request that waits. -/
def State.serveMail (s : State) : State :=
  match s.boot.mail with
  | some req =>
      if s.mcReady 0 then ({ s with boot := { s.boot with mail := none } } : State).mailCmd (natLE (slice req 7 1)) req else s
  | none => s

/-- A LIVE update goes on once the core before runs: the next core restarts, or, after MC0, the record names the slot (R425). A core that
has failed ends it. -/
def State.liveNext (s : State) : State :=
  match s.boot.live with
  | none => s
  | some (slot, ver, l) =>
      let before := (l.head?.map (fun i => i + 1)).getD 0
      let stop : State := { s with boot := { s.boot with live := none } }
      if s.mcState before = 2 then
        (match l with
          | i :: t => ({ s with boot := { s.boot with live := some (slot, ver, t) } } : State).restartMc ver i
          | [] => stop.writeRec slot s.bootRec.pending s.bootRec.tries)
      else if s.mcState before = 4 then stop
      else s

/-- A core that was reloaded runs (R422); with MC0 SMB is set, and a request that waited is served. -/
def State.reloadedMc (s : State) (i : Nat) (ver : Word) : State :=
  let s := s.runMc ver i
  (if i = 0 then (s.setReady 0x430010 59 true).serveMail else s).updateRings

/-- The cores that were reloaded in the tick before run. -/
def State.mcTick (s : State) : State :=
  let l := s.boot.loading
  let s := { s with boot := { s.boot with loading := [] } }
  (l.foldl (fun (s : State) x => s.reloadedMc x.1 x.2) s).liveNext

/-- TALLY_TICK (R313): the tick; sideband levels that have held are accepted (R339), and management cores run again (R422). -/
def execTallyTick (e : Edge) (s : State) : Res := .next (s.tick e).mcTick.filterTick

/-- NEGOTIATE (R429). -/
def execNegotiate (req : List (BitVec 8)) (s : State) : Res := .next (s.mailSubmit 0x01 req)
/-- KEYLOAD (R411). -/
def execKeyload (req : List (BitVec 8)) (s : State) : Res := .next (s.mailSubmit 0x08 req)
/-- STAGE (R427). -/
def execStage (req : List (BitVec 8)) (s : State) : Res := .next (s.mailSubmit 0x10 req)
/-- VERIFY (R427). -/
def execVerify (req : List (BitVec 8)) (s : State) : Res := .next (s.mailSubmit 0x11 req)
/-- ACTIVATE (R425). -/
def execActivate (req : List (BitVec 8)) (s : State) : Res := .next (s.mailSubmit 0x12 req)
/-- LIVE (R425). -/
def execLive (req : List (BitVec 8)) (s : State) : Res := .next (s.mailSubmit 0x13 req)
/-- RESTART (R427). -/
def execRestart (req : List (BitVec 8)) (s : State) : Res := .next (s.mailSubmit 0x20 req)
/-- MAILBOX_ABORT (R377). -/
def execMailboxAbort (req : List (BitVec 8)) (s : State) : Res := .next (s.mailSubmit 0x30 req)
/-- RUN (R427). -/
def execRun (req : List (BitVec 8)) (s : State) : Res := .next (s.mailSubmit 0x31 req)
/-- RESET (R427): the cold reset follows the response. -/
def execMailboxReset (req : List (BitVec 8)) (s : State) : Res := .next (s.mailSubmit 0x40 req)
/-- A command without a meaning (R427): byte 7 of the request names it. -/
def execMailboxUnknownCmd (req : List (BitVec 8)) (s : State) : Res := .next (s.mailSubmit (natLE (slice req 7 1)) req)

/-! ### The recovery function (R417) -/

/-- A command of MGC.RCV: in recovery mode only; its completion is signalled. -/
def State.rcv (s : State) (f : State → State) : State := if s.recoveryMode then (f s).mailEvent else s

/-- Verify a slot: STAT and REASON. -/
def State.rcvVerify (s : State) (slot : Nat) : State :=
  let r := s.verifySlot slot
  (r.2.setFld 0x430300 59 58 (if r.1 = 0 then 2 else 3)).setFld 0x430300 57 54 r.1

/-- Make a slot pending, if its last verify passed. -/
def State.rcvPend (s : State) (slot : Nat) : State :=
  if s.boot.passed.contains slot then s.writeRec s.bootRec.active (slot + 1) 0 else s

def execRcvVerifyA (s : State) : Res := .next (s.rcv (fun s => s.rcvVerify 0))
def execRcvVerifyB (s : State) : Res := .next (s.rcv (fun s => s.rcvVerify 1))
def execRcvPendA (s : State) : Res := .next (s.rcv (fun s => s.rcvPend 0))
def execRcvPendB (s : State) : Res := .next (s.rcv (fun s => s.rcvPend 1))
def execRcvColdReset (s : State) : Res := .next (s.rcv State.coldReset)

/-- RECOVERY_BAR2_ACCESS (R417): a write of the NV die, which the recovery slot and the record area drop, or a read of len bytes. -/
def execRecoveryBar2Access (offset : Nat) (write : Option (List (BitVec 8))) (len : Nat) (s : State) : Res :=
  .next (if !(s.recoveryMode && s.hostReady) then s
    else match write with
      | some bytes => s.putNv offset (bytes.take (0xA000000 - offset))
      | none => { s with hostOut := s.hostOut ++ [.data (s.nvBytes offset len)] })

/-! ### Admission and the travel-time table (R205, R212, R301, R431) -/

/-- MODULE_ADMISSION (R431): the admitted module, which has come up to CADLOCK, sets its compute ready bits; a neighbour retrains
its ports to it. -/
def execModuleAdmission (j : Nat) (s : State) : Res :=
  onIndex j 64 s (if s.answers j then (if s.topoSolo || s.fld 0x430010 60 60 = 1 then s.updateDies else s)
    else (s.portsTo j).foldl (fun (s : State) r =>
      (s.setFld (fpOff (s.phys r) 0) 63 63 1).toPortState (s.phys r) 0) s)

/-- The entries of the table: offset in the region and the compute dies that an entry concerns. -/
def travelEntries : List (Nat × List Nat) :=
  (List.range 576).map (fun i => (0x100 + 4 * i, [i / 144])) ++
    (List.range 16).map (fun i => (0xC00 + 4 * i, [i / 4, i % 4])) ++
    (List.range 32).map (fun i => (0xC40 + 4 * i, [i / 8])) ++
    (List.range 32).map (fun i => (0xCC0 + 4 * i, [i / 8])) ++
    (List.range 4096).map (fun i => (0x1000 + 4 * i, [0, 1, 2, 3]))

/-- MM.MIN and MM.MAX for the fewest and most hops over the alternates of a pair (R301): f_lo is 31/40 cycle per ns, f is FMAXN/40. -/
def mmMin (ll hmin : Nat) : Nat := 35 + 31 * (hmin * ll + (hmin - 1) * 40) / 40
def mmMax (fmaxn ll hmax : Nat) : Nat := 117 + ceilDiv (fmaxn * (512 + hmax * ll + (hmax - 1) * 40)) 40

/-- The measured value of the entry at an offset of the region, as (MIN, MAX): from the image, and that of a pair of modules from the
hops over its alternates (R301). A MAX of 0 tells that there is no such path. -/
def State.measured (s : State) (image : List Byte) (hops : List (Nat × Nat × Nat)) (off : Nat) : Nat × Nat :=
  if off < 0x1000 then (natLE (slice image off 2), natLE (slice image (off + 2) 2))
  else match hops.find? (fun h => h.1 == (off - 0x1000) / 4) with
    | some h => (mmMin s.ll h.2.1, mmMax (s.fld 0x200000 55 48) s.ll h.2.2)
    | none => (0, 0)

/-- Does a measured entry leave the published one? -/
def State.outside (s : State) (off : Nat) (m : Nat × Nat) : Bool :=
  m.2 != 0 && (decide (s.tmax (0x200000 + off) < m.2) || decide (m.1 < s.tmin (0x200000 + off)))

/-- Do the measured values keep the bounds of R205: OFF in 0-4, and for each path MAX in 1-65 535 and MIN in 1-MAX? -/
def travelOk (image : List Byte) (entries : List (Nat × List Nat × Nat × Nat)) : Bool :=
  (List.range 48).all (fun i => decide (natLE (slice image (0x40 + i) 1) % 8 ≤ 4)) &&
    entries.all (fun e => e.2.2.2 == 0 || (decide (1 ≤ e.2.2.1) && decide (e.2.2.1 ≤ e.2.2.2) && decide (e.2.2.2 < 65536)))

/-- A table published: every entry, VALID = 1, STALE = 0, EPOCH advanced. FMAXN bounds the votes (R330). -/
def State.publish (s : State) (image : List Byte) (entries : List (Nat × List Nat × Nat × Nat)) : State :=
  let s := (List.range 48).foldl (fun (s : State) i => s.setReg (0x200040 + i) (BitVec.ofNat 64 (natLE (slice image (0x40 + i) 1) % 8))) s
  let s := entries.foldl (fun (s : State) e => s.setReg (0x200000 + e.1) (BitVec.ofNat 64 (e.2.2.2 * 65536 + e.2.2.1))) s
  (((s.setFld 0x200000 63 63 1).setFld 0x200000 62 62 0).setFld 0x200000 47 40 (s.fld 0x200000 47 40 + 1)).clampVotes.updateDies

/-- TRAVEL_PUBLISH (R205, R212): image is the region as training has measured it, hops the fewest and most hops of each pair of modules
i, j, by 64 i + j (R301). A table in force stays if every path lies within its entry, and turns stale if one does not; else what has
been measured is published. Firmware publishes no table outside the bounds of R205. -/
def execTravelPublish (image : List (BitVec 8)) (hops : List (Nat × Nat × Nat)) (s : State) : Res :=
  .next (
    let entries := travelEntries.map (fun e => (e.1, e.2, s.measured image hops e.1))
    if !travelOk image entries then s
    else if s.fld 0x200000 63 62 = 2 then
      let out := entries.filter (fun e => s.outside e.1 e.2.2)
      if out.isEmpty then s
      else (List.range 4).foldl (fun (s : State) d =>
        if out.any (fun e => e.2.1.contains d) then s.setReady 0x430010 (49 + d) false else s) (s.setFld 0x200000 62 62 1)
    else s.publish image entries)

/-! ### Services (R420, R461) -/

/-- Management service: MC0, and the host link or SMBus. -/
def State.managementUp (s : State) : Bool := s.mcReady 0 && (s.hostReady || s.fld 0x430010 59 59 == 1)

/-- Compute service: management, a compute die with a ready cluster, a scheduling core, and cadence lock in an
installation. -/
def State.computeUp (s : State) : Bool :=
  s.managementUp && (s.mcReady 4 || s.mcReady 5) && (s.topoSolo || s.fld 0x430010 60 60 == 1) &&
    (List.range 4).any (fun d => s.fld 0x430010 (49 + d) (49 + d) == 1 && s.fld 0x430018 (12 * d + 11) (12 * d) != 0)

/-- The level of the READY pin (R461): at high impedance, and so pulled low, until SIDEBAND is released and in recovery
mode (R413, R416). -/
def State.readyPin (s : State) : Bool := natBit s.boot.outputs 6 && !s.recoveryMode && s.computeUp

end Sys2Proof.Machine
end

