-- ==== Sys2Proof/Machine/Channel.lean ====
section
/-! DEFINITION. The commands of channels, combining units and sync-object stores (spec/05, spec/09): SYNC_APPLY,
CHANNEL_ELEMENT_ARRIVAL, CREDIT_RETURN, COMBINING_TAKE and COMBINING_DELIVERY. -/
namespace Sys2Proof.Machine

/-- Has something reached object i of die d by now? -/
def State.syncDue (s : State) (d i : Nat) : Bool :=
  s.syncMsgs.any (fun m => m.die == d && m.index == i && decide (m.due ≤ s.now))

/-- SYNC_APPLY (R267), together with what reached the die's store before. -/
def execSyncApply (die index : Nat) (s : State) : Res :=
  onIndex die 4 s (if s.syncMsgs.any (fun m => m.die == die && m.index == index) then
    s.whenDue (fun s => s.syncDue die index) (fun s => s.applyStore die) else s)

/-- The item of a list that falls due first, of those with a property. -/
def firstDue {α : Type} (due : α → Nat) (ok : α → Bool) (l : List α) : Option α :=
  l.foldl (fun (b : Option α) x => if !ok x then b else match b with
    | some y => if due x < due y then some x else b
    | none => some x) none

def State.nextFlight (s : State) (d : Nat) : Option ChanFlight := firstDue ChanFlight.due (fun f => f.die == d) s.flights
def State.nextCredit (s : State) (d : Nat) : Option CreditFlight := firstDue CreditFlight.due (fun f => f.die == d) s.credits

/-- An element beyond its time s + MAX is discarded, a link fault of its group for the partitions whose bakes it has on the
module (R215). -/
def State.lateElement (s : State) (f : ChanFlight) : State :=
  let parts := mask16 (fun p => s.bakes.any (fun b => b.1 == f.group && b.2.2.1 == p))
  { s with raised := s.raised ++ [{ cls := 2, unit := UnitForm.toId (.group f.group), parts := parts, capture := none }] }

/-- CHANNEL_ELEMENT_ARRIVAL (R156): the element on the die that is due first arrives. -/
def execChannelElementArrival (die : Nat) (s : State) : Res :=
  onIndex die 4 s (match s.nextFlight die with
    | none => s
    | some f => s.whenDue (fun s => decide (f.due ≤ s.now)) (fun s =>
        let t : State := { s with flights := s.flights.erase f }
        if f.due < s.now then t.lateElement f else t.arrive f))

/-- CREDIT_RETURN (R157): the credit on the die that is due first comes back. -/
def execCreditReturn (die : Nat) (s : State) : Res :=
  onIndex die 4 s (match s.nextCredit die with
    | none => s
    | some r => s.whenDue (fun s => decide (r.due ≤ s.now)) (fun s => ({ s with credits := s.credits.erase r } : State).creditBack r))

/-- A unit that acts once in a die cycle: at its second act in one the next begins. -/
def State.oncePer (s : State) (last : Tab Nat) (k : Nat) : State :=
  if Tab.get zeroN last k = s.now + 1 then s.passCycle else s

/-- COMBINING_TAKE (R163). -/
def execCombiningTake (die cluster : Nat) (s : State) : Res :=
  .next (if die < 4 ∧ cluster < 12 then
      let s := s.oncePer s.takeAt (unitKey die cluster)
      if Tab.get zeroN s.takeAt (unitKey die cluster) = s.now + 1 then s
      else ({ s with takeAt := Tab.set zeroN s.takeAt (unitKey die cluster) (s.now + 1) } : State).cmbTake die cluster
    else s)

/-- COMBINING_DELIVERY (R164). -/
def execCombiningDelivery (die cluster : Nat) (s : State) : Res :=
  .next (if die < 4 ∧ cluster < 12 then
      let s := s.oncePer s.giveAt (unitKey die cluster)
      if Tab.get zeroN s.giveAt (unitKey die cluster) = s.now + 1 then s
      else ({ s with giveAt := Tab.set zeroN s.giveAt (unitKey die cluster) (s.now + 1) } : State).cmbDeliver die cluster
    else s)

end Sys2Proof.Machine
end

