-- ==== Sys2Proof/Machine/Registers.lean ====
section
/-! DEFINITION. Writes of registers (R12-R14, R344): what a write of each register does beyond its fields' access codes, and
the commands GROUP_SECTION_LOAD to SYNC_OBJECT_WRITE, REGISTER_WRITE, DEBUG_STATE_ACCESS and APERTURE_ACCESS. -/
namespace Sys2Proof.Machine

/-- A write that does what its fields' codes say and no more. -/
def State.plainWrite (s : State) (host : Bool) (d : RegDesc) (off : Nat) (v : Word) : State :=
  s.setReg off (d.write host (s.reg off) v)

/-! ### CORE blocks -/

/-- A write of a register of a core's block: P, KT and OWN ignore it while a bake is queued or running (R173, R179, R441),
P63 always; a write of QB W0 has every effect of a binding (R151). -/
def State.writeCore (s : State) (host : Bool) (key : Nat) (u : CoreId) (off : Nat) (v : Word) : State :=
  match findReg coreRegs off with
  | none => s
  | some (d, ix) =>
      let c := s.coreAt key
      let plain := s.setCoreAt key (c.setReg off (d.write host (c.reg off) v))
      match d.base, ix with
      | 0, [n] => if c.hasBake || n == 63 then s else plain
      | 0x400, _ => if c.hasBake then s else plain
      | 0x298, _ => s.writeOwn key u v
      | 0x800, _ => s.setCoreAt key (c.unstick off v)
      | 0x820, _ => s.setCoreAt key (c.unstick off v)
      | 0x1000, [n] => s.setCoreAt key (c.bind n (d.write host (c.reg off) v) none)
      | _, _ => plain

/-! ### The rest of the control space -/

/-- The request of 2 KB that stands in MGC.MBOX.REQ. -/
def State.mailReq (s : State) : List Byte := ((List.range 256).map (fun i => bytesLE (s.reg (0x431000 + 8 * i)).toNat 8)).flatten

/-- A write of MGC.RCV by its CMD (R417). -/
def State.writeRcv (s : State) (cmd : Nat) : State :=
  match cmd with
  | 1 => s.rcv (fun s => s.rcvVerify 0)
  | 2 => s.rcv (fun s => s.rcvVerify 1)
  | 3 => s.rcv (fun s => s.rcvPend 0)
  | 4 => s.rcv (fun s => s.rcvPend 1)
  | 5 => s.rcv State.coldReset
  | _ => s

/-- A write of HUB.LTPATCH W0 by the host: one that names P63 or a timing-bearing register is refused (R367). -/
def State.patchRefused (s : State) (e : Nat) (v : Word) : Bool := bits v 5 0 == 63 || bitAt (s.reg (ltOff e 6)) (bits v 5 0)

/-- A write of a register outside the CORE blocks, by its table entry and indices. -/
def State.writeModule (s : State) (host : Bool) (d : RegDesc) (ix : List Nat) (off : Nat) (v : Word) : State :=
  let plain := s.plainWrite host d off v
  let locked := s.setFld 0x138 0 0 1
  match d.base, ix with
  | 0x100000, [i] => if s.groupBusy i then locked else plain
  | 0x100008, [i] => if s.groupBusy i then locked else plain
  | 0x100010, [i] => if s.groupBusy i then locked else plain
  | 0x120000, [k] => if s.memberLocked k then locked else plain
  | 0x1000, [p] => s.definePart p v
  | 0x318000, [e, _] => if host && s.patchRefused e v then s else plain
  | 0x80008, [p, c] => s.writeRing p c v
  | 0x80108, [p] => s.writeRing p 3 v
  | 0x81000, [p, c] => s.doorbell p c v.toNat
  | 0x400008, _ => s.writeDcy v
  | 0x400020, _ => plain.clampVotes
  | 0x400030, _ =>
      let kept := plain.setFld 0x400030 57 57 s.cad.depth.isSome.toNat
      if bitAt v 57 then kept.armDepth else kept
  | 0x400080, _ => s.writePcap v
  | 0x400088, _ => if bitAt v 15 then plain.setFld 0x400088 31 16 0 else plain
  | 0x400100, [_] => if bitAt v 63 then plain.setFld off 61 61 0 else plain
  | 0x400800, [i] => if i < 23 then plain else s
  | 0x410018, _ => if bitAt v 63 then plain.armFabric else plain
  | 0x411000, [p] => if bitAt v 62 || (!bitAt v 63 && s.portState p != 0) then plain.retrain p else plain
  | 0x430200, [i] => if bitAt v 63 then s.restartMc (s.mcVer i) i else s
  | 0x430300, _ => if host && !s.recoveryMode then s else s.writeRcv (bits v 63 60)
  | 0x430500, _ => if bitAt v 0 then (let r := s.mailReq; s.mailSubmit (natLE (slice r 7 1)) r) else s
  | 0x440008, _ => s.writeSnap v
  | 0x480100, [m] => ((s.regimeCheck m).plainWrite host d off v).regimeCheck m
  | 0x481000, [m, t, k] => s.writeSlot m t k (v.toNat % 256)
  | 0x900000, [d, i] => s.setObj d i v.toNat
  | 0x1000000, [d, k] => s.writeSpare d k v
  | 0x1002000, [d, k, n] => s.writeCmb d k n 0 v
  | 0x1002008, [d, k, n] => s.writeCmb d k n 1 v
  | _, _ => plain

/-- A write of the whole register that starts at an offset of the control space. -/
def State.writeReg (s : State) (host : Bool) (off : Nat) (v : Word) : State :=
  match coreBlock off with
  | some (u, o) => (match s.key u with
      | some key => s.writeCore host key u o v
      | none => s)
  | none => (match findReg moduleRegs off with
      | some (d, ix) => s.writeModule host d ix off v
      | none => s)

/-- A write of stream records, by firmware or by the host with HWEN (R357). -/
def State.writeStream (s : State) (off : Nat) (bs : List Byte) : State :=
  let i := off / 128
  let old := (s.stream i).bytes
  let k := off % 128
  s.setStream i (StreamRec.ofBytes ((old.take k ++ bs ++ old.drop (k + bs.length)).take 128))

/-- The places that the host may write while HWEN = 0 (R344, R417, R427). -/
def State.hostOpen (s : State) (off : Nat) : Bool :=
  let within (a n : Nat) : Bool := decide (a ≤ off) && decide (off < a + n)
  within 0x80000 0x40000 || within 0x2000 0x400 || within 0x318000 0x8000 || within 0x400060 8 || within 0x431000 0x800 ||
    within 0x430500 8 || (s.recoveryMode && within 0x430300 8)

/-- A write to registers narrower than itself: each register that it covers takes its bytes (log 31). -/
def State.writeNarrow (s : State) (host : Bool) (w off bytes : Nat) (v : Word) : State :=
  (List.range (max 1 (bytes / max 1 w))).foldl (fun (s : State) i =>
    match ctlStart (off + w * i) with
    | some (d, st) =>
        if d.bytes = w ∧ st = off + w * i then s.writeReg host st (BitVec.ofNat 64 (v.toNat / 2 ^ (8 * w * i) % 2 ^ (8 * w))) else s
    | none => s) s

/-- A write of some bytes at an offset: a whole register, or one half of a 64-bit one (R14): the lower is held until the upper
is written. The host's write to a place closed to it is discarded and counted (R344). -/
def State.writeBytes (s : State) (host : Bool) (off bytes : Nat) (v : Word) : State :=
  if host && s.fld 0x108 63 63 == 0 && !s.hostOpen off then s.setFld 0x108 31 0 (s.fld 0x108 31 0 + 1)
  else if 0x2000000 ≤ off ∧ off < 0x4000000 then s.writeStream (off - 0x2000000) (bytesLE v.toNat bytes)
  else match ctlStart off with
    | none => s
    | some (d, st) =>
        if d.bytes < 8 then (if st = off then s.writeNarrow host d.bytes off bytes v else s)
        else if bytes = 8 then (if st = off then s.writeReg host st v else s)
        else if bytes ≠ 4 then s
        else if st = off then { s with halves := Tab.set zeroW s.halves st (BitVec.ofNat 64 (bits v 31 0)) }
        else if st + 4 = off then
          let w : Word := BitVec.ofNat 64 (bits v 31 0 * 2 ^ 32 + (Tab.w s.halves st).toNat)
          ({ s with halves := Tab.erase st s.halves } : State).writeReg host st w
        else s

/-- A write of some bytes at an offset of an MSI-X table of n vectors. -/
def State.writeTable (s : State) (vf : Option Nat) (n off bytes : Nat) (v : Word) : State :=
  let word := off / 8
  let old := s.msixWord vf word
  if 2 * n ≤ word then s
  else if bytes = 8 ∧ off % 8 = 0 then s.writeMsix vf word v
  else if bytes = 4 ∧ off % 8 = 0 then s.writeMsix vf word (Machine.setFld old 31 0 (bits v 31 0))
  else if bytes = 4 ∧ off % 8 = 4 then s.writeMsix vf word (Machine.setFld old 63 32 (bits v 31 0))
  else s

/-- A write through a BAR that holds ring pages from 0 on, `pages` bytes of them beginning at ring page p, then the MSI-X table of n
vectors of the function, and the PBA, which is read-only (R342). With RINGS clear it is ignored (R419). -/
def State.writePages (s : State) (vf : Option Nat) (p pages n off bytes : Nat) (v : Word) : State :=
  if !s.rings then s
  else if off < pages then s.writeBytes true (0x80000 + 0x4000 * p + off) bytes v
  else if off < pages + 0x1000 then s.writeTable vf n (off - pages) bytes v
  else s

/-- REGISTER_WRITE (R12, R14, R342, R344): by firmware; by the host through PF BAR0, which in recovery mode holds the MGC block alone
(R417), PF BAR2, which a module without a gateway role lacks (R341), or BAR0 of a VF. -/
def execRegisterWrite (w : Writer) (offset bytes : Nat) (v : BitVec 64) (s : State) : Res :=
  .next (match w with
    | .firmware => s.writeBytes false offset bytes v
    | .host => if s.recoveryMode && !(decide (0x430000 ≤ offset) && decide (offset < 0x440000)) then s else s.writeBytes true offset bytes v
    | .bar2 => if s.gwRole = 0 || s.recoveryMode then s else s.writePages none 0 0x40000 128 offset bytes v
    | .vf p => if s.vfOn p then s.writePages (some p) p 0x4000 120 offset bytes v else s)

/-- DEBUG_STATE_ACCESS (R443): core and cluster state needs scope bit 1, management-core debug bit 2, hub and die registers
bit 3; locked, the instruction behaves as BYPASS. -/
def execDebugStateAccess (offset : Nat) (write : Option (BitVec 64)) (s : State) : Res :=
  .next (
    let bit := if (coreBlock offset).isSome || (clBlock offset).isSome then 1
      else if 0x430000 ≤ offset ∧ offset < 0x440000 then 2 else 3
    if !s.inScope bit then s.jtagDeny
    else match write with
      | some v => (s.writeBytes false offset 8 v).jtagIs .access []
      | none => s.jtagIs .access ((List.range 8).map (fun i => s.ctlByte (offset + i))))

/-! ### Tables that firmware loads -/

/-- GROUP_DESCRIPTOR_WRITE (R26): a word of a descriptor or a member entry, by its offset. -/
def execGroupDescriptorWrite (offset : Nat) (v : BitVec 64) (s : State) : Res :=
  .next (if 0x100000 ≤ offset ∧ offset < 0x160000 then s.writeReg false offset v else s)

/-- QUEUE_BINDING_WRITE (R151). -/
def execQueueBindingWrite (u : CoreId) (n word : Nat) (v : BitVec 64) (s : State) : Res :=
  onCore u s (fun key => if n < 48 ∧ word < 4 then s.writeCore false key u (0x1000 + 32 * n + 8 * word) v else s)

/-- COMBINING_SLOT_WRITE (R161). -/
def execCombiningSlotWrite (d k n word : Nat) (v : BitVec 64) (s : State) : Res :=
  .next (if d < 4 ∧ k < 12 ∧ n < 64 ∧ word < 2 then s.writeCmb d k n word v else s)

/-- WINDOW_WRITE (R263). -/
def execWindowWrite (w word : Nat) (v : BitVec 64) (s : State) : Res :=
  .next (if w < 256 ∧ word < 4 then s.writeReg false (0x300000 + 0x20 * w + 8 * word) v else s)

/-- TAG_PARTITION_WRITE (R256). -/
def execTagPartitionWrite (d p : Nat) (v : BitVec 64) (s : State) : Res :=
  .next (if d < 4 ∧ p < 16 then s.writeReg false (tpOff d p) v else s)

/-- SYNC_OBJECT_WRITE (R266). -/
def execSyncObjectWrite (d i : Nat) (v : BitVec 32) (s : State) : Res :=
  .next (if d < 4 ∧ i < 32768 then s.setObj d i v.toNat else s)

/-! ### Group sections (R27) -/

/-- The depth computed from a unit's members; none for a cycle or more than six levels. -/
def State.depthOf (s : State) : Nat → UnitId → Option Nat
  | 0, u => match UnitForm.ofId u with
      | .core _ _ _ _ => some 0
      | _ => none
  | f + 1, u => match UnitForm.ofId u with
      | .core _ _ _ _ => some 0
      | .cluster _ _ _ => some 1
      | .die _ _ => some 2
      | .module _ => some 3
      | .bad => none
      | .group i =>
          (s.gdMembers i).foldl (fun (b : Option Nat) m => match b, s.depthOf f m with
            | some x, some y => some (max x (y + 1))
            | _, _ => none) (some 0)

/-- Does the core lie in the core set of a partition (R472)? -/
def State.inCoreSet (s : State) (p : Nat) (u : CoreId) : Bool :=
  let b := 192 * u.die + 16 * u.cluster + u.slot
  bitAt (s.reg (0x4000 + 0x80 * p + 8 * (b / 64))) (b % 64)

/-- Does descriptor i pass the checks of R27? -/
def State.groupOk (s : State) (i : Nat) : Bool :=
  let split := s.gdSplit i
  let home := match UnitForm.ofId (s.gdHome i) with
    | .die _ _ => s.addresses (s.gdHome i)
    | _ => false
  let depth := s.depthOf 6 (UnitForm.toId (.group i))
  decide (split ≤ 2) && (split == 0 || (decide (1 ≤ s.gdGran i) && decide (s.gdGran i ≤ 1048576))) &&
    (split != 2 || decide (1 ≤ s.gdRowlen i)) && decide (1 ≤ s.gdMcount i) && decide (s.gdMcount i ≤ 1024) && home &&
    decide (s.gdNsbase i ≤ 32767) && decide (s.gdNsbase i + s.gdNssize i ≤ 32768) && decide (s.gdMbase i + s.gdMcount i ≤ 65536) &&
    (s.gdMembers i).all s.addresses && depth == some (s.gdDepth i) && decide (1 ≤ s.gdDepth i) && decide (s.gdDepth i ≤ 6) &&
    (List.range 16).all (fun p => !natBit (s.gdPmask i) p ||
      (s.reached (UnitForm.toId (.group i))).all (fun r => s.inCoreSet p r.1))

/-- The descriptors that a list of writes names, and the member entries. -/
def namedGroups (l : List (Nat × Word)) : List Nat :=
  (l.filterMap (fun e => if 0x100000 ≤ e.1 ∧ e.1 < 0x120000 then some ((e.1 - 0x100000) / 32) else none)).eraseDups
def namedMembers (l : List (Nat × Word)) : List Nat :=
  (l.filterMap (fun e => if 0x120000 ≤ e.1 ∧ e.1 < 0x160000 then some ((e.1 - 0x120000) / 4) else none)).eraseDups

/-- The descriptors with V = 1. -/
def State.loadedGroups (s : State) : List Nat :=
  ((s.regs.filterMap (fun e => if 0x100000 ≤ e.1 ∧ e.1 < 0x120000 then some ((e.1 - 0x100000) / 32) else none)).eraseDups).filter s.gdV

/-- Does a state t with the section in it pass R27: every member entry that the section writes addresses a unit; its groups, and those
whose lists it changes, pass; and a group loaded before that passed still does, such as an outer one whose depth the section may change? -/
def State.sectionOk (s t : State) (l : List (Nat × Word)) : Bool :=
  let ours := namedGroups l
  let ents := namedMembers l
  let touched (g : Nat) : Bool := ours.contains g || ents.any (fun k => decide (t.gdMbase g ≤ k) && decide (k < t.gdMbase g + t.gdMcount g))
  l.all (fun e => decide (0x100000 ≤ e.1) && decide (e.1 < 0x160000)) &&
    ents.all (fun k => t.addresses (BitVec.ofNat 32 (t.reg (0x120000 + 4 * k)).toNat)) &&
    t.loadedGroups.all (fun g => t.groupOk g || (!touched g && !s.groupOk g))

/-- GROUP_SECTION_LOAD (R27): a list of 16 B entries, offset and value, for descriptors and the member table; a section that
fails a check is refused and reported. -/
def execGroupSectionLoad (image : List (BitVec 8)) (s : State) : Res :=
  .next (
    let l := regList image
    let t := l.foldl (fun (s : State) e => s.writeReg false e.1 e.2) s
    if s.sectionOk t l then t else s.loadFailed)

/-! ### Apertures (R345) -/

/-- Bytes that the host, or firmware, writes into the control space or the stream records, register by register. -/
def State.putControl (s : State) (host : Bool) (off : Nat) (bs : List Byte) : State :=
  let w := if bs.length % 8 = 0 && off % 8 == 0 then 8 else 4
  (List.range (bs.length / w)).foldl (fun (s : State) i =>
    s.writeBytes host (off + w * i) w (BitVec.ofNat 64 (natLE (slice bs (w * i) w)))) s

/-- APERTURE_ACCESS (R345): through the PF, or a partition's VF. An aperture that is not there takes no write and answers a read with
Unsupported Request, like one with V = 0. -/
def execApertureAccess (r : ApertureReq) (s : State) : Res :=
  .next (
    let closed : State := if r.write.isSome then s else { s with hostOut := s.hostOut ++ [.unsupported] }
    if !s.hostReady then s
    else match s.apertureReg r with
      | none => closed
      | some off =>
          let w := s.reg off
          if !bitAt w 63 then closed
          else if r.write.isSome && !bitAt w 62 then s
          else s.hostAccess (r.vf.getD 0) (BitVec.ofNat 64 (bits w 32 0 * 2 ^ 30 + r.offset % 2 ^ 30)) r.write r.len
            (fun o bs s => s.putControl true o bs))

end Sys2Proof.Machine
end

