-- ==== Sys2Proof/Machine/Link.lean ====
section
/-! DEFINITION. The commands of the fabric (spec/10). -/
namespace Sys2Proof.Machine

/-- CODEWORD_RECEIVE (R282): 544 symbols on physical lane `lane` of physical port p. -/
def execCodewordReceive (p lane : Nat) (syms : List (BitVec 10)) (s : State) : Res :=
  .next (if p < 24 ∧ lane < 9 then s.receive p lane (syms.map (fun x => x.toNat)) else s)

/-- FLIT_SLOT_SEND (R287): the next slot of logical port r. -/
def execFlitSlotSend (r : Nat) (s : State) : Res := onIndex r 24 s (s.slotSend r)

/-- FLIT_FORWARD (R288): the oldest flit at logical port q whose route goes on. -/
def execFlitForward (q : Nat) (s : State) : Res := onIndex q 24 s (s.forward q)

/-- An access of another module's firmware to the stream records or the control space (R234, R343): a write, which is acknowledged, or a
read, which is answered. -/
def State.controlFlit (s : State) (f : Flit) : State :=
  let base := if f.space = 3 then 0x2000000 + f.off else f.off
  let there := f.space == 3 || f.space == 4
  if f.type = 1 then (if there then s.putControl false base f.body else s).effectFlit f
  else if !there then s.reply f (List.replicate (f.len + 1) 0) false (some f.targetDie)
  else
    let x := s.ctlRead base (f.len + 1)
    x.2.reply f x.1 false (some f.targetDie)

/-- The accesses to control registers that have been ejected take place. -/
def State.controlFlits (s : State) : State :=
  s.fab.ctlIn.foldl State.controlFlit (s.setFab { s.fab with ctlIn := [] })

/-- FLIT_EJECT (R300): the oldest flit at logical port q whose route ends here. -/
def execFlitEject (q : Nat) (s : State) : Res :=
  onIndex q 24 s (if (s.rxHead q true).isNone then s else s.whenDue (fun s => s.ejectDue q) (fun s => (s.eject q).controlFlits))

/-- FLIT_AGE_DROP (R387). -/
def execFlitAgeDrop (s : State) : Res := .next s.ageDrop

/-- ACK_FLIT_SEND (R284): to module j. -/
def execAckFlitSend (j : Nat) (s : State) : Res := onIndex j 64 s (s.sendAcks j)

/-- TOKEN_REFILL (R298): at the start of the next frame of slots, if one begins in the tick. -/
def execTokenRefill (s : State) : Res :=
  .next (if 40 * (s.tally + 1) ≤ 512 * s.nextFslotFrame then s else s.whenDue (fun s => s.frameBegun) (fun s => s.refill))

/-- PORT_TRAINING (R293): a step of physical port p's training. -/
def execPortTraining (p : Nat) (ev : TrainEvent) (s : State) : Res := onIndex p 24 s (s.train p ev)

/-- RETRAIN (R305). -/
def execRetrain (p : Nat) (s : State) : Res := onIndex p 24 s (s.retrain p)

/-- LINK_FAULT (R294): whatever the event, the port is at fault and R306 names the partitions; far is the mask of those that
the other end's tables and the other modules' regulators add. -/
def execLinkFault (p : Nat) (_ : LinkFaultWhy) (far : Nat) (s : State) : Res := onIndex p 24 s (s.linkFault p far)

/-- FABRIC_COMMIT_ARM (R291). -/
def execFabricCommitArm (s : State) : Res := .next s.armFabric

/-- FABRIC_COMMIT (R291). -/
def execFabricCommit (s : State) : Res := .next s.commitFabric

/-- SLOT_BOOKING_MERGE (R290): with the reserve ports of the starter's port roles, as a mask of logical ports, where these are not the
default ones (R226, R303). -/
def execSlotBookingMerge (roles : Option Nat) (l : List Booking) (s : State) : Res :=
  .next (({ s with fab := { s.fab with roles := roles } } : State).mergeBookings l)

end Sys2Proof.Machine
end

