-- ==== Sys2Proof/Machine/Matrix.lean ====
section
/-! DEFINITION. The matrix commands MMA.OS, MMA.WS and MMA.IS (R77) and the pushes of their drains (R92). -/
namespace Sys2Proof.Machine

/-- The running cycle after that of the last issue of the unit, or of the last read through SX-R: MX and VX commands read
before it (R145), so one that comes after it issues in the next cycle (log 6). -/
def Core.beforeSx (at_ : Core → Nat) (c : Core) : Nat := max (at_ c) (max c.emAt c.sxAt)

/-- An MX command issues; its first step may meet a proof point (R158). -/
def State.mxCommand (s : State) (key : Nat) (mode : MxMode) (c : MxCmd) : State :=
  s.issue key (Core.beforeSx Core.mxAt) (fun s rc => (s.atCore key (fun k => mxIssue k rc mode c false)).checkNeeds key)

/-- MMA_OS (R77). -/
def execMmaOs (u : CoreId) (c : MxCmd) (s : State) : Res := onCore u s (fun key => s.mxCommand key .os c)
/-- MMA_WS (R77). -/
def execMmaWs (u : CoreId) (c : MxCmd) (s : State) : Res := onCore u s (fun key => s.mxCommand key .ws c)
/-- MMA_IS (R77). -/
def execMmaIs (u : CoreId) (c : MxCmd) (s : State) : Res := onCore u s (fun key => s.mxCommand key .is c)

/-- Is a push due? -/
def State.drainDue (s : State) (key : Nat) : Bool :=
  let c := s.coreAt key
  (mxDueRun c (c.rc s.now)).isSome

/-- The push due: what is due in the cycle is read before it, and a push that lacks credits stalls the core. -/
def State.drain (s : State) (key : Nat) : State :=
  let c := s.coreAt key
  let rc := c.rc s.now
  match mxDueRun (c.beginCycle rc) rc with
  | none => s
  | some r =>
      let ns := mxPushNeeds c r
      if c.needsMet ns then s.atCore key (fun c => mxPush (c.beginCycle rc) r)
      else s.stallCore key { emptyStall with queues := ns }

/-- MX_DRAIN (R92): the next push of the oldest command that drains. -/
def execMxDrain (u : CoreId) (s : State) : Res :=
  onCore u s (fun key => if (s.coreAt key).mxs.isEmpty then s
    else s.whenCore key (fun s => s.drainDue key) (fun s => s.ahead key u (fun s => s.drain key)))

end Sys2Proof.Machine
end

