-- ==== Sys2Proof/Machine/Scalar.lean ====
section
/-! DEFINITION. The QX commands (R198), the delayed register writes (R200), and the replies that a WAIT awaits (R269). -/
namespace Sys2Proof.Machine

/-- A QX command issues; a WAIT or BARRIER.D that does not complete stalls the core (R216), and an END is a kernel
boundary (R372). -/
def State.qxCommand (s : State) (key : Nat) (u : CoreId) (op : QxOp) : State :=
  s.issue key Core.qxAt (fun s rc =>
    let r := s.qx key u rc op
    match r.1, op with
    | some w, _ => if r.2.syncMet u.die w then r.2 else r.2.stallCore key { emptyStall with sync := some w }
    | none, .endT _ _ _ => r.2.schedule key
    | none, _ => r.2)

/-- Sli (R198). -/
def execSli (u : CoreId) (sd : Nat) (imm : BitVec 32) (s : State) : Res := onCore u s (fun key => s.qxCommand key u (.sli sd imm))
/-- Slih (R198). -/
def execSlih (u : CoreId) (sd : Nat) (imm : BitVec 32) (s : State) : Res := onCore u s (fun key => s.qxCommand key u (.slih sd imm))
/-- Smov (R198). -/
def execSmov (u : CoreId) (sd sa : Nat) (s : State) : Res := onCore u s (fun key => s.qxCommand key u (.smov sd sa))
/-- Sgetp (R198). -/
def execSgetp (u : CoreId) (sd pn : Nat) (s : State) : Res := onCore u s (fun key => s.qxCommand key u (.sgetp sd pn))
/-- Sadd (R198). -/
def execSadd (u : CoreId) (sd sa : Nat) (b : QxVal) (s : State) : Res := onCore u s (fun key => s.qxCommand key u (.alu .add sd sa b))
/-- Ssub (R198). -/
def execSsub (u : CoreId) (sd sa : Nat) (b : QxVal) (s : State) : Res := onCore u s (fun key => s.qxCommand key u (.alu .sub sd sa b))
/-- Smul (R198). -/
def execSmul (u : CoreId) (sd sa : Nat) (b : QxVal) (s : State) : Res := onCore u s (fun key => s.qxCommand key u (.alu .mul sd sa b))
/-- Smin (R198). -/
def execSmin (u : CoreId) (sd sa : Nat) (b : QxVal) (s : State) : Res := onCore u s (fun key => s.qxCommand key u (.alu .min sd sa b))
/-- Smax (R198). -/
def execSmax (u : CoreId) (sd sa : Nat) (b : QxVal) (s : State) : Res := onCore u s (fun key => s.qxCommand key u (.alu .max sd sa b))
/-- Sand (R198). -/
def execSand (u : CoreId) (sd sa : Nat) (b : QxVal) (s : State) : Res := onCore u s (fun key => s.qxCommand key u (.alu .and sd sa b))
/-- Sor (R198). -/
def execSor (u : CoreId) (sd sa : Nat) (b : QxVal) (s : State) : Res := onCore u s (fun key => s.qxCommand key u (.alu .or sd sa b))
/-- Sxor (R198). -/
def execSxor (u : CoreId) (sd sa : Nat) (b : QxVal) (s : State) : Res := onCore u s (fun key => s.qxCommand key u (.alu .xor sd sa b))
/-- Sshl (R198). -/
def execSshl (u : CoreId) (sd sa : Nat) (b : QxVal) (s : State) : Res := onCore u s (fun key => s.qxCommand key u (.alu .shl sd sa b))
/-- Sshr (R198). -/
def execSshr (u : CoreId) (sd sa : Nat) (b : QxVal) (s : State) : Res := onCore u s (fun key => s.qxCommand key u (.alu .shr sd sa b))
/-- Ssra (R198). -/
def execSsra (u : CoreId) (sd sa : Nat) (b : QxVal) (s : State) : Res := onCore u s (fun key => s.qxCommand key u (.alu .sra sd sa b))
/-- Sext (R198). -/
def execSext (u : CoreId) (sd sa : Nat) (imm : BitVec 32) (s : State) : Res := onCore u s (fun key => s.qxCommand key u (.sext sd sa imm))
/-- Sld (R198). -/
def execSld (u : CoreId) (sd sa : Nat) (imm : BitVec 32) (s : State) : Res := onCore u s (fun key => s.qxCommand key u (.sld sd sa imm))
/-- Sst (R198). -/
def execSst (u : CoreId) (sa sb : Nat) (imm : BitVec 32) (s : State) : Res := onCore u s (fun key => s.qxCommand key u (.sst sa sb imm))
/-- Csrr (R198). -/
def execCsrr (u : CoreId) (sd : Nat) (imm : BitVec 32) (s : State) : Res := onCore u s (fun key => s.qxCommand key u (.csrr sd imm))
/-- Csrw (R198). -/
def execCsrw (u : CoreId) (sb : Nat) (imm : BitVec 32) (s : State) : Res := onCore u s (fun key => s.qxCommand key u (.csrw sb imm))
/-- Qbind (R151). -/
def execQbind (u : CoreId) (qn pm : Nat) (s : State) : Res := onCore u s (fun key => s.qxCommand key u (.qbind qn pm))
/-- Qunbind (R198). -/
def execQunbind (u : CoreId) (qn : Nat) (s : State) : Res := onCore u s (fun key => s.qxCommand key u (.qunbind qn))
/-- Signal (R268). -/
def execSignal (u : CoreId) (r : SyncRef) (v : SyncVal) (s : State) : Res := onCore u s (fun key => s.qxCommand key u (.signal r v))
/-- Wait (R269). -/
def execWait (u : CoreId) (r : SyncRef) (v : SyncVal) (s : State) : Res := onCore u s (fun key => s.qxCommand key u (.wait r v))
/-- Reset (R268). -/
def execReset (u : CoreId) (r : SyncRef) (s : State) : Res := onCore u s (fun key => s.qxCommand key u (.reset r))
/-- BarrierD (R275). -/
def execBarrierD (u : CoreId) (group : Nat) (s : State) : Res := onCore u s (fun key => s.qxCommand key u (.barrierD group))
/-- Skip (R184). -/
def execSkip (u : CoreId) (t : Test) (n : Nat) (s : State) : Res := onCore u s (fun key => s.qxCommand key u (.skip t n))
/-- EndT (R175). -/
def execEndT (u : CoreId) (t : Test) (nt nf : Nat) (s : State) : Res := onCore u s (fun key => s.qxCommand key u (.endT t nt nf))

/-- The oldest register write that is due (R200): of a scalar register by SMUL, SLD, CSRR or SRED, or of a block by
CSRW. -/
def Core.dueWrite (c : Core) (rc : Nat) : Option Late :=
  c.late.find? (fun l => decide (l.due ≤ rc) && (match l.eff with
    | .sreg _ _ => true
    | .sred _ _ => true
    | .csrw _ _ _ => true
    | _ => false))

/-- A register write lands. -/
def State.landWrite (s : State) (key : Nat) (l : Late) : State :=
  let s := s.atCore key (fun c => { c with late := c.late.erase l })
  match l.eff with
  | .sreg r v => s.atCore key (fun c => c.qxWrite l.issue r v)
  | .sred r v => s.atCore key (fun c => c.sredWrite r v)
  | .csrw cl off v => s.programWrite key cl off v
  | _ => s

/-- DELAYED_REGISTER_WRITE (R200). -/
def execDelayedRegisterWrite (u : CoreId) (s : State) : Res :=
  onCore u s (fun key =>
    if (s.coreAt key).late.isEmpty && (s.coreAt key).vxs.isEmpty then s
    else
      let due (s : State) : Option Late := (s.coreAt key).dueWrite ((s.coreAt key).rc s.now)
      s.whenCore key (fun s => (due s).isSome) (fun s => match due s with
        | some l => s.landWrite key l
        | none => s))

/-- The reply to a WAIT's read of a remote object (R269): of another die's object its value, of another module's the
value given. -/
def State.waitReply (s : State) (key : Nat) (u : CoreId) (v : Nat) : State :=
  let c := s.coreAt key
  match c.stall with
  | some st => (match st.sync with
      | some (.remote m d i t adm due none) =>
          let val := if !adm then 0 else if s.answers m then (s.obj d i).seen (s.now - s.tmin (ddOff d u.die)) else v
          s.setCoreAt key { c with stall := some { st with sync := some (.remote m d i t adm due (some val)) } }
      | _ => s)
  | none => s

/-- Is the reply due: has the travel time of both ways passed? -/
def State.replyDue (s : State) (key : Nat) : Bool :=
  match (s.coreAt key).stall with
  | some st => (match st.sync with
      | some (.remote _ _ _ _ _ due none) => decide (due ≤ s.now)
      | _ => false)
  | none => false

/-- SYNC_WAIT_READ_REPLY (R269). -/
def execSyncWaitReadReply (u : CoreId) (value : BitVec 32) (s : State) : Res :=
  onCore u s (fun key =>
    if (s.coreAt key).stall.isNone then s
    else s.whenDue (fun s => s.replyDue key) (fun s => s.waitReply key u value.toNat))

end Sys2Proof.Machine
end

