-- ==== Sys2Proof/Machine/Vector.lean ====
section
/-! DEFINITION. The vector commands (R113): each issues its operation on the VX (R106-R111), and the write of a beat
(R110). -/
namespace Sys2Proof.Machine

/-- A VX command issues; its first beat may meet a proof point (R158). -/
def State.vxCommand (s : State) (key : Nat) (op : VxOp) (c : VxCmd) : State :=
  s.issue key (Core.beforeSx Core.vxAt) (fun s rc => (s.atCore key (fun k => vxIssue k rc op c false)).checkNeeds key)

/-- Mov (R113). -/
def execMov (u : CoreId) (c : VxCmd) (s : State) : Res := onCore u s (fun key => s.vxCommand key .mov c)
/-- Add (R117). -/
def execAdd (u : CoreId) (c : VxCmd) (s : State) : Res := onCore u s (fun key => s.vxCommand key .add c)
/-- Sub (R117). -/
def execSub (u : CoreId) (c : VxCmd) (s : State) : Res := onCore u s (fun key => s.vxCommand key .sub c)
/-- Mul (R117). -/
def execMul (u : CoreId) (c : VxCmd) (s : State) : Res := onCore u s (fun key => s.vxCommand key .mul c)
/-- Mulh (R119). -/
def execMulh (u : CoreId) (c : VxCmd) (s : State) : Res := onCore u s (fun key => s.vxCommand key .mulh c)
/-- Adds (R119). -/
def execAdds (u : CoreId) (c : VxCmd) (s : State) : Res := onCore u s (fun key => s.vxCommand key .adds c)
/-- Subs (R119). -/
def execSubs (u : CoreId) (c : VxCmd) (s : State) : Res := onCore u s (fun key => s.vxCommand key .subs c)
/-- FmaVs (R117). -/
def execFmaVs (u : CoreId) (c : VxCmd) (s : State) : Res := onCore u s (fun key => s.vxCommand key .fmaVs c)
/-- FmaSv (R117). -/
def execFmaSv (u : CoreId) (c : VxCmd) (s : State) : Res := onCore u s (fun key => s.vxCommand key .fmaSv c)
/-- FmaVvd (R117). -/
def execFmaVvd (u : CoreId) (c : VxCmd) (s : State) : Res := onCore u s (fun key => s.vxCommand key .fmaVvd c)
/-- Min (R117). -/
def execMin (u : CoreId) (c : VxCmd) (s : State) : Res := onCore u s (fun key => s.vxCommand key .min c)
/-- Max (R117). -/
def execMax (u : CoreId) (c : VxCmd) (s : State) : Res := onCore u s (fun key => s.vxCommand key .max c)
/-- Abs (R117). -/
def execAbs (u : CoreId) (c : VxCmd) (s : State) : Res := onCore u s (fun key => s.vxCommand key .abs c)
/-- Neg (R117). -/
def execNeg (u : CoreId) (c : VxCmd) (s : State) : Res := onCore u s (fun key => s.vxCommand key .neg c)
/-- CmpEq (R118). -/
def execCmpEq (u : CoreId) (c : VxCmd) (s : State) : Res := onCore u s (fun key => s.vxCommand key (.cmp .eq) c)
/-- CmpNe (R118). -/
def execCmpNe (u : CoreId) (c : VxCmd) (s : State) : Res := onCore u s (fun key => s.vxCommand key (.cmp .ne) c)
/-- CmpLt (R118). -/
def execCmpLt (u : CoreId) (c : VxCmd) (s : State) : Res := onCore u s (fun key => s.vxCommand key (.cmp .lt) c)
/-- CmpLe (R118). -/
def execCmpLe (u : CoreId) (c : VxCmd) (s : State) : Res := onCore u s (fun key => s.vxCommand key (.cmp .le) c)
/-- CmpGt (R118). -/
def execCmpGt (u : CoreId) (c : VxCmd) (s : State) : Res := onCore u s (fun key => s.vxCommand key (.cmp .gt) c)
/-- CmpGe (R118). -/
def execCmpGe (u : CoreId) (c : VxCmd) (s : State) : Res := onCore u s (fun key => s.vxCommand key (.cmp .ge) c)
/-- CmpNlt (R118). -/
def execCmpNlt (u : CoreId) (c : VxCmd) (s : State) : Res := onCore u s (fun key => s.vxCommand key (.cmp .nlt) c)
/-- CmpNle (R118). -/
def execCmpNle (u : CoreId) (c : VxCmd) (s : State) : Res := onCore u s (fun key => s.vxCommand key (.cmp .nle) c)
/-- CmpNgt (R118). -/
def execCmpNgt (u : CoreId) (c : VxCmd) (s : State) : Res := onCore u s (fun key => s.vxCommand key (.cmp .ngt) c)
/-- CmpNge (R118). -/
def execCmpNge (u : CoreId) (c : VxCmd) (s : State) : Res := onCore u s (fun key => s.vxCommand key (.cmp .nge) c)
/-- Sel (R118). -/
def execSel (u : CoreId) (c : VxCmd) (s : State) : Res := onCore u s (fun key => s.vxCommand key .sel c)
/-- And (R124). -/
def execAnd (u : CoreId) (c : VxCmd) (s : State) : Res := onCore u s (fun key => s.vxCommand key .and c)
/-- Or (R124). -/
def execOr (u : CoreId) (c : VxCmd) (s : State) : Res := onCore u s (fun key => s.vxCommand key .or c)
/-- Xor (R124). -/
def execXor (u : CoreId) (c : VxCmd) (s : State) : Res := onCore u s (fun key => s.vxCommand key .xor c)
/-- Andn (R124). -/
def execAndn (u : CoreId) (c : VxCmd) (s : State) : Res := onCore u s (fun key => s.vxCommand key .andn c)
/-- Shl (R119). -/
def execShl (u : CoreId) (c : VxCmd) (s : State) : Res := onCore u s (fun key => s.vxCommand key .shl c)
/-- Shr (R119). -/
def execShr (u : CoreId) (c : VxCmd) (s : State) : Res := onCore u s (fun key => s.vxCommand key .shr c)
/-- Sra (R119). -/
def execSra (u : CoreId) (c : VxCmd) (s : State) : Res := onCore u s (fun key => s.vxCommand key .sra c)
/-- Cvt (R120). -/
def execCvt (u : CoreId) (c : VxCmd) (s : State) : Res := onCore u s (fun key => s.vxCommand key .cvt c)
/-- Exp2 (R123). -/
def execExp2 (u : CoreId) (c : VxCmd) (s : State) : Res := onCore u s (fun key => s.vxCommand key (.transc .exp2) c)
/-- Log2 (R123). -/
def execLog2 (u : CoreId) (c : VxCmd) (s : State) : Res := onCore u s (fun key => s.vxCommand key (.transc .log2) c)
/-- Rcp (R122). -/
def execRcp (u : CoreId) (c : VxCmd) (s : State) : Res := onCore u s (fun key => s.vxCommand key (.transc .rcp) c)
/-- Rsqrt (R122). -/
def execRsqrt (u : CoreId) (c : VxCmd) (s : State) : Res := onCore u s (fun key => s.vxCommand key (.transc .rsqrt) c)
/-- Tanh (R123). -/
def execTanh (u : CoreId) (c : VxCmd) (s : State) : Res := onCore u s (fun key => s.vxCommand key (.transc .tanh) c)
/-- Sigmoid (R123). -/
def execSigmoid (u : CoreId) (c : VxCmd) (s : State) : Res := onCore u s (fun key => s.vxCommand key (.transc .sigmoid) c)
/-- ShufXor (R125). -/
def execShufXor (u : CoreId) (c : VxCmd) (s : State) : Res := onCore u s (fun key => s.vxCommand key .shufXor c)
/-- ShufRot (R125). -/
def execShufRot (u : CoreId) (c : VxCmd) (s : State) : Res := onCore u s (fun key => s.vxCommand key .shufRot c)
/-- ShufBc (R125). -/
def execShufBc (u : CoreId) (c : VxCmd) (s : State) : Res := onCore u s (fun key => s.vxCommand key .shufBc c)
/-- Perm (R126). -/
def execPerm (u : CoreId) (c : VxCmd) (s : State) : Res := onCore u s (fun key => s.vxCommand key .perm c)
/-- Sred (R128). -/
def execSred (u : CoreId) (c : VxCmd) (s : State) : Res := onCore u s (fun key => s.vxCommand key .sred c)
/-- Unpack (R129). -/
def execUnpack (u : CoreId) (c : VxCmd) (s : State) : Res := onCore u s (fun key => s.vxCommand key .unpack c)
/-- PackBq (R130). -/
def execPackBq (u : CoreId) (c : VxCmd) (s : State) : Res := onCore u s (fun key => s.vxCommand key .packBq c)
/-- Qpack (R131). -/
def execQpack (u : CoreId) (c : VxCmd) (s : State) : Res := onCore u s (fun key => s.vxCommand key .qpack c)
/-- Cvtr (R136). -/
def execCvtr (u : CoreId) (c : VxCmd) (s : State) : Res := onCore u s (fun key => s.vxCommand key .cvtr c)

/-- Is a beat's write due? -/
def State.beatDue (s : State) (key : Nat) : Bool :=
  let c := s.coreAt key
  (vxDueRun c (c.rc s.now)).isSome

/-- The beat due is written: what is due in the cycle is read before it, and a push that lacks credits stalls the
core. -/
def State.writeBeat (s : State) (key : Nat) : State :=
  let c := s.coreAt key
  let rc := c.rc s.now
  match vxDueRun (c.beginCycle rc) rc with
  | none => s
  | some x =>
      if c.needsMet (vxWriteNeeds c x.1 x.2) then s.atCore key (fun c => vxWriteBeat (c.beginCycle rc) x.1 x.2)
      else s.stallCore key { emptyStall with queues := vxWriteNeeds c x.1 x.2 }

/-- VX_BEAT_WRITE (R110): the oldest beat due. -/
def execVxBeatWrite (u : CoreId) (s : State) : Res :=
  onCore u s (fun key => if (s.coreAt key).vxs.all (fun r => r.op == .sred) then s
    else s.whenCore key (fun s => s.beatDue key) (fun s => s.ahead key u (fun s => s.writeBeat key)))

end Sys2Proof.Machine
end

