-- ==== Sys2Proof/Machine/Dispatch.lean ====
section
/-! DEFINITION. One arm per command: its effect on everything but the queue. -/
namespace Sys2Proof.Machine

/-- The effect of a command. -/
def exec (i : Instr) (s : State) : Host.Outcome State Fault Refusal :=
  match i with
  | .launch u m => Sys2Proof.Machine.execLaunch u m s
  | .patch u m => Sys2Proof.Machine.execPatch u m s
  | .abort u unit => Sys2Proof.Machine.execAbort u unit s
  | .quiesce u unit => Sys2Proof.Machine.execQuiesce u unit s
  | .messageDelivery m => Sys2Proof.Machine.execMessageDelivery m s
  | .bundleIssue u => Sys2Proof.Machine.execBundleIssue u s
  | .proofPointResume u => Sys2Proof.Machine.execProofPointResume u s
  | .mmaOs u c => Sys2Proof.Machine.execMmaOs u c s
  | .mmaWs u c => Sys2Proof.Machine.execMmaWs u c s
  | .mmaIs u c => Sys2Proof.Machine.execMmaIs u c s
  | .mxDrain u => Sys2Proof.Machine.execMxDrain u s
  | .mov u c => Sys2Proof.Machine.execMov u c s
  | .add u c => Sys2Proof.Machine.execAdd u c s
  | .sub u c => Sys2Proof.Machine.execSub u c s
  | .mul u c => Sys2Proof.Machine.execMul u c s
  | .mulh u c => Sys2Proof.Machine.execMulh u c s
  | .adds u c => Sys2Proof.Machine.execAdds u c s
  | .subs u c => Sys2Proof.Machine.execSubs u c s
  | .fmaVs u c => Sys2Proof.Machine.execFmaVs u c s
  | .fmaSv u c => Sys2Proof.Machine.execFmaSv u c s
  | .fmaVvd u c => Sys2Proof.Machine.execFmaVvd u c s
  | .min u c => Sys2Proof.Machine.execMin u c s
  | .max u c => Sys2Proof.Machine.execMax u c s
  | .abs u c => Sys2Proof.Machine.execAbs u c s
  | .neg u c => Sys2Proof.Machine.execNeg u c s
  | .cmpEq u c => Sys2Proof.Machine.execCmpEq u c s
  | .cmpNe u c => Sys2Proof.Machine.execCmpNe u c s
  | .cmpLt u c => Sys2Proof.Machine.execCmpLt u c s
  | .cmpLe u c => Sys2Proof.Machine.execCmpLe u c s
  | .cmpGt u c => Sys2Proof.Machine.execCmpGt u c s
  | .cmpGe u c => Sys2Proof.Machine.execCmpGe u c s
  | .cmpNlt u c => Sys2Proof.Machine.execCmpNlt u c s
  | .cmpNle u c => Sys2Proof.Machine.execCmpNle u c s
  | .cmpNgt u c => Sys2Proof.Machine.execCmpNgt u c s
  | .cmpNge u c => Sys2Proof.Machine.execCmpNge u c s
  | .sel u c => Sys2Proof.Machine.execSel u c s
  | .and u c => Sys2Proof.Machine.execAnd u c s
  | .or u c => Sys2Proof.Machine.execOr u c s
  | .xor u c => Sys2Proof.Machine.execXor u c s
  | .andn u c => Sys2Proof.Machine.execAndn u c s
  | .shl u c => Sys2Proof.Machine.execShl u c s
  | .shr u c => Sys2Proof.Machine.execShr u c s
  | .sra u c => Sys2Proof.Machine.execSra u c s
  | .cvt u c => Sys2Proof.Machine.execCvt u c s
  | .exp2 u c => Sys2Proof.Machine.execExp2 u c s
  | .log2 u c => Sys2Proof.Machine.execLog2 u c s
  | .rcp u c => Sys2Proof.Machine.execRcp u c s
  | .rsqrt u c => Sys2Proof.Machine.execRsqrt u c s
  | .tanh u c => Sys2Proof.Machine.execTanh u c s
  | .sigmoid u c => Sys2Proof.Machine.execSigmoid u c s
  | .shufXor u c => Sys2Proof.Machine.execShufXor u c s
  | .shufRot u c => Sys2Proof.Machine.execShufRot u c s
  | .shufBc u c => Sys2Proof.Machine.execShufBc u c s
  | .perm u c => Sys2Proof.Machine.execPerm u c s
  | .sred u c => Sys2Proof.Machine.execSred u c s
  | .unpack u c => Sys2Proof.Machine.execUnpack u c s
  | .packBq u c => Sys2Proof.Machine.execPackBq u c s
  | .qpack u c => Sys2Proof.Machine.execQpack u c s
  | .cvtr u c => Sys2Proof.Machine.execCvtr u c s
  | .vxBeatWrite u => Sys2Proof.Machine.execVxBeatWrite u s
  | .delayedRegisterWrite u => Sys2Proof.Machine.execDelayedRegisterWrite u s
  | .sxGo u c => Sys2Proof.Machine.execSxGo u c s
  | .sxOperationEmit u => Sys2Proof.Machine.execSxOperationEmit u s
  | .transferDataArrival id => Sys2Proof.Machine.execTransferDataArrival id s
  | .transferSignal id => Sys2Proof.Machine.execTransferSignal id s
  | .tagGrant die => Sys2Proof.Machine.execTagGrant die s
  | .tagReturn id => Sys2Proof.Machine.execTagReturn id s
  | .sli u sd imm => Sys2Proof.Machine.execSli u sd imm s
  | .slih u sd imm => Sys2Proof.Machine.execSlih u sd imm s
  | .smov u sd sa => Sys2Proof.Machine.execSmov u sd sa s
  | .sgetp u sd pn => Sys2Proof.Machine.execSgetp u sd pn s
  | .sadd u sd sa b => Sys2Proof.Machine.execSadd u sd sa b s
  | .ssub u sd sa b => Sys2Proof.Machine.execSsub u sd sa b s
  | .smul u sd sa b => Sys2Proof.Machine.execSmul u sd sa b s
  | .smin u sd sa b => Sys2Proof.Machine.execSmin u sd sa b s
  | .smax u sd sa b => Sys2Proof.Machine.execSmax u sd sa b s
  | .sand u sd sa b => Sys2Proof.Machine.execSand u sd sa b s
  | .sor u sd sa b => Sys2Proof.Machine.execSor u sd sa b s
  | .sxor u sd sa b => Sys2Proof.Machine.execSxor u sd sa b s
  | .sshl u sd sa b => Sys2Proof.Machine.execSshl u sd sa b s
  | .sshr u sd sa b => Sys2Proof.Machine.execSshr u sd sa b s
  | .ssra u sd sa b => Sys2Proof.Machine.execSsra u sd sa b s
  | .sext u sd sa imm => Sys2Proof.Machine.execSext u sd sa imm s
  | .sld u sd sa imm => Sys2Proof.Machine.execSld u sd sa imm s
  | .sst u sa sb imm => Sys2Proof.Machine.execSst u sa sb imm s
  | .csrr u sd imm => Sys2Proof.Machine.execCsrr u sd imm s
  | .csrw u sb imm => Sys2Proof.Machine.execCsrw u sb imm s
  | .qbind u qn pm => Sys2Proof.Machine.execQbind u qn pm s
  | .qunbind u qn => Sys2Proof.Machine.execQunbind u qn s
  | .signal u r v => Sys2Proof.Machine.execSignal u r v s
  | .wait u r v => Sys2Proof.Machine.execWait u r v s
  | .reset u r => Sys2Proof.Machine.execReset u r s
  | .barrierD u group => Sys2Proof.Machine.execBarrierD u group s
  | .skip u t n => Sys2Proof.Machine.execSkip u t n s
  | .endT u t nt nf => Sys2Proof.Machine.execEndT u t nt nf s
  | .syncWaitReadReply u value => Sys2Proof.Machine.execSyncWaitReadReply u value s
  | .syncApply die index => Sys2Proof.Machine.execSyncApply die index s
  | .channelElementArrival die => Sys2Proof.Machine.execChannelElementArrival die s
  | .creditReturn die => Sys2Proof.Machine.execCreditReturn die s
  | .combiningTake die cluster => Sys2Proof.Machine.execCombiningTake die cluster s
  | .combiningDelivery die cluster => Sys2Proof.Machine.execCombiningDelivery die cluster s
  | .extUAccess u => Sys2Proof.Machine.execExtUAccess u s
  | .dramSlot m => Sys2Proof.Machine.execDramSlot m s
  | .refreshRegimeSwitch m temp => Sys2Proof.Machine.execRefreshRegimeSwitch m temp s
  | .slotTableLoad m v0 v1 => Sys2Proof.Machine.execSlotTableLoad m v0 v1 s
  | .codewordReceive p lane syms => Sys2Proof.Machine.execCodewordReceive p lane syms s
  | .flitSlotSend r => Sys2Proof.Machine.execFlitSlotSend r s
  | .flitForward q => Sys2Proof.Machine.execFlitForward q s
  | .flitEject q => Sys2Proof.Machine.execFlitEject q s
  | .flitAgeDrop => Sys2Proof.Machine.execFlitAgeDrop s
  | .ackFlitSend j => Sys2Proof.Machine.execAckFlitSend j s
  | .tokenRefill => Sys2Proof.Machine.execTokenRefill s
  | .portTraining p ev => Sys2Proof.Machine.execPortTraining p ev s
  | .retrain p => Sys2Proof.Machine.execRetrain p s
  | .linkFault p why far => Sys2Proof.Machine.execLinkFault p why far s
  | .fabricCommitArm => Sys2Proof.Machine.execFabricCommitArm s
  | .fabricCommit => Sys2Proof.Machine.execFabricCommit s
  | .slotBookingMerge roles l => Sys2Proof.Machine.execSlotBookingMerge roles l s
  | .heartbeat => Sys2Proof.Machine.execHeartbeat s
  | .heartbeatLoss j => Sys2Proof.Machine.execHeartbeatLoss j s
  | .tallyTick e => Sys2Proof.Machine.execTallyTick e s
  | .cadenceLoss => Sys2Proof.Machine.execCadenceLoss s
  | .walkStart => Sys2Proof.Machine.execWalkStart s
  | .walkSlot slot vals => Sys2Proof.Machine.execWalkSlot slot vals s
  | .ridgeMarkerCheck p0 p1 => Sys2Proof.Machine.execRidgeMarkerCheck p0 p1 s
  | .timekeeperTakeover => Sys2Proof.Machine.execTimekeeperTakeover s
  | .ridgeAbort phases => Sys2Proof.Machine.execRidgeAbort phases s
  | .ridgeBarrier phases => Sys2Proof.Machine.execRidgeBarrier phases s
  | .regionVoteUpdate rs => Sys2Proof.Machine.execRegionVoteUpdate rs s
  | .frequencyArbitration r0 r1 => Sys2Proof.Machine.execFrequencyArbitration r0 r1 s
  | .frequencyChange => Sys2Proof.Machine.execFrequencyChange s
  | .ridgeDepthSample p24 p25 => Sys2Proof.Machine.execRidgeDepthSample p24 p25 s
  | .ridgeHostFlags p26 p27 => Sys2Proof.Machine.execRidgeHostFlags p26 p27 s
  | .depthCommitArm => Sys2Proof.Machine.execDepthCommitArm s
  | .depthCommit => Sys2Proof.Machine.execDepthCommit s
  | .droopFault r => Sys2Proof.Machine.execDroopFault r s
  | .thermalTrip r => Sys2Proof.Machine.execThermalTrip r s
  | .alignmentRegain shift phase1 => Sys2Proof.Machine.execAlignmentRegain shift phase1 s
  | .dcyWrite v => Sys2Proof.Machine.execDcyWrite v s
  | .powerCapUpdate pin vin brk => Sys2Proof.Machine.execPowerCapUpdate pin vin brk s
  | .doorbell p c pi => Sys2Proof.Machine.execDoorbell p c pi s
  | .ingestFetch desc input => Sys2Proof.Machine.execIngestFetch desc input s
  | .ingestRefill => Sys2Proof.Machine.execIngestRefill s
  | .nop p c => Sys2Proof.Machine.execNop p c s
  | .openS p c => Sys2Proof.Machine.execOpenS p c s
  | .append p c => Sys2Proof.Machine.execAppend p c s
  | .close p c => Sys2Proof.Machine.execClose p c s
  | .roll p c => Sys2Proof.Machine.execRoll p c s
  | .requestAccept p c => Sys2Proof.Machine.execRequestAccept p c s
  | .recordRetire n => Sys2Proof.Machine.execRecordRetire n s
  | .resultWrite p => Sys2Proof.Machine.execResultWrite p s
  | .ringEnableWrite p ring v => Sys2Proof.Machine.execRingEnableWrite p ring v s
  | .flrVf p => Sys2Proof.Machine.execFlrVf p s
  | .flrPf => Sys2Proof.Machine.execFlrPf s
  | .perstN level => Sys2Proof.Machine.execPerstN level s
  | .gatewayTakeover => Sys2Proof.Machine.execGatewayTakeover s
  | .launchTableFire e => Sys2Proof.Machine.execLaunchTableFire e s
  | .batchFreeze e => Sys2Proof.Machine.execBatchFreeze e s
  | .commit e => Sys2Proof.Machine.execCommit e s
  | .engineTimeCharge u => Sys2Proof.Machine.execEngineTimeCharge u s
  | .sharePeriod => Sys2Proof.Machine.execSharePeriod s
  | .faultDetect f => Sys2Proof.Machine.execFaultDetect f s
  | .faultRecheck d k again load => Sys2Proof.Machine.execFaultRecheck d k again load s
  | .abortFlit body => Sys2Proof.Machine.execAbortFlit body s
  | .syncWatchdog u => Sys2Proof.Machine.execSyncWatchdog u s
  | .progressWatchdog u => Sys2Proof.Machine.execProgressWatchdog u s
  | .generationChange => Sys2Proof.Machine.execGenerationChange s
  | .replay e => Sys2Proof.Machine.execReplay e s
  | .spareSubstitution d k v regs load => Sys2Proof.Machine.execSpareSubstitution d k v regs load s
  | .standbyPromotion => Sys2Proof.Machine.execStandbyPromotion s
  | .lossConfirmation j => Sys2Proof.Machine.execLossConfirmation j s
  | .inputPowerLoss => Sys2Proof.Machine.execInputPowerLoss s
  | .vbatLoss => Sys2Proof.Machine.execVbatLoss s
  | .resetN level => Sys2Proof.Machine.execResetN level s
  | .bootSlotChoice => Sys2Proof.Machine.execBootSlotChoice s
  | .pendingConfirmation => Sys2Proof.Machine.execPendingConfirmation s
  | .sequencerStep n lost tested spares => Sys2Proof.Machine.execSequencerStep n lost tested spares s
  | .mcWatchdog n => Sys2Proof.Machine.execMcWatchdog n s
  | .kick n => Sys2Proof.Machine.execKick n s
  | .mcRestart n => Sys2Proof.Machine.execMcRestart n s
  | .negotiate req => Sys2Proof.Machine.execNegotiate req s
  | .keyload req => Sys2Proof.Machine.execKeyload req s
  | .stage req => Sys2Proof.Machine.execStage req s
  | .verify req => Sys2Proof.Machine.execVerify req s
  | .activate req => Sys2Proof.Machine.execActivate req s
  | .live req => Sys2Proof.Machine.execLive req s
  | .restart req => Sys2Proof.Machine.execRestart req s
  | .mailboxAbort req => Sys2Proof.Machine.execMailboxAbort req s
  | .run req => Sys2Proof.Machine.execRun req s
  | .mailboxReset req => Sys2Proof.Machine.execMailboxReset req s
  | .mailboxUnknownCmd req => Sys2Proof.Machine.execMailboxUnknownCmd req s
  | .rcvVerifyA => Sys2Proof.Machine.execRcvVerifyA s
  | .rcvVerifyB => Sys2Proof.Machine.execRcvVerifyB s
  | .rcvPendA => Sys2Proof.Machine.execRcvPendA s
  | .rcvPendB => Sys2Proof.Machine.execRcvPendB s
  | .rcvColdReset => Sys2Proof.Machine.execRcvColdReset s
  | .moduleAdmission j => Sys2Proof.Machine.execModuleAdmission j s
  | .travelPublish image hops => Sys2Proof.Machine.execTravelPublish image hops s
  | .groupSectionLoad image => Sys2Proof.Machine.execGroupSectionLoad image s
  | .groupDescriptorWrite offset v => Sys2Proof.Machine.execGroupDescriptorWrite offset v s
  | .queueBindingWrite u n word v => Sys2Proof.Machine.execQueueBindingWrite u n word v s
  | .combiningSlotWrite d k n word v => Sys2Proof.Machine.execCombiningSlotWrite d k n word v s
  | .windowWrite w word v => Sys2Proof.Machine.execWindowWrite w word v s
  | .tagPartitionWrite d p v => Sys2Proof.Machine.execTagPartitionWrite d p v s
  | .syncObjectWrite d n v => Sys2Proof.Machine.execSyncObjectWrite d n v s
  | .powerCapWrite v => Sys2Proof.Machine.execPowerCapWrite v s
  | .zeroise u v => Sys2Proof.Machine.execZeroise u v s
  | .keyRecordForm e key decl => Sys2Proof.Machine.execKeyRecordForm e key decl s
  | .headSign p => Sys2Proof.Machine.execHeadSign p s
  | .headSignComplete => Sys2Proof.Machine.execHeadSignComplete s
  | .snapshotArm v => Sys2Proof.Machine.execSnapshotArm v s
  | .snapshot => Sys2Proof.Machine.execSnapshot s
  | .dbgChallenge => Sys2Proof.Machine.execDbgChallenge s
  | .dbgUnlock token => Sys2Proof.Machine.execDbgUnlock token s
  | .bypass => Sys2Proof.Machine.execBypass s
  | .idcode => Sys2Proof.Machine.execIdcode s
  | .samplePreload bits => Sys2Proof.Machine.execSamplePreload bits s
  | .extest => Sys2Proof.Machine.execExtest s
  | .extestPulse => Sys2Proof.Machine.execExtestPulse s
  | .extestTrain => Sys2Proof.Machine.execExtestTrain s
  | .debugStateAccess offset write => Sys2Proof.Machine.execDebugStateAccess offset write s
  | .registerWrite w offset bytes v => Sys2Proof.Machine.execRegisterWrite w offset bytes v s
  | .hostLinkUp vfs => Sys2Proof.Machine.execHostLinkUp vfs s
  | .hostLinkDown => Sys2Proof.Machine.execHostLinkDown s
  | .msixMtimExpiry p => Sys2Proof.Machine.execMsixMtimExpiry p s
  | .apertureAccess r => Sys2Proof.Machine.execApertureAccess r s
  | .recoveryBar2Access offset write len => Sys2Proof.Machine.execRecoveryBar2Access offset write len s
  | .partitionDefine p v => Sys2Proof.Machine.execPartitionDefine p v s
  | .trstN level => Sys2Proof.Machine.execTrstN level s

end Sys2Proof.Machine
end

