-- ==== Sys2Proof/Machine/Step.lean ====
section
/-! DEFINITION. One step: the command at the front of the queue; on an empty queue a die cycle passes (log 5). -/
namespace Sys2Proof.Machine

/-- The command at the front of the queue has its effect, with the rest of the queue waiting. With no command waiting,
one die cycle of the tick in progress passes, if one is left. -/
def step (s : State) : Host.Outcome State Fault Refusal :=
  match s.pending with
  | [] => .next s.passCycle
  | c :: rest => exec c { s with pending := rest }

/-- The state with the command that a word spells at the front of the queue; the opcode table gives no command bits, so no
word spells one. -/
def State.withFetchWord (s : State) (nbits w : Nat) : State :=
  match decodeTableWord nbits w with
  | some c => { s with pending := c :: s.pending }
  | none => s

end Sys2Proof.Machine
end

