-- ==== Sys2Proof/Safety.lean ====
section
/-! DEFINITION. What claims say about a machine: how a command ends, runs of steps, and the terms in which the statements
name what commands do. -/
namespace Sys2Proof
open Machine

/-! ### Outcomes and runs -/

/-- Does an outcome answer a next state? -/
def isNext (r : Res) : Bool :=
  match r with
  | .next _ => true
  | _ => false

/-- n steps from a state; a fault or a refusal ends the run. -/
def runSteps : Nat → State → Res
  | 0, s => .next s
  | n + 1, s => match step s with
      | .next t => runSteps n t
      | r => r

/-- A safe run: every command of it has an effect that the spec or the log gives it, and none is refused. -/
def SafeRun (n : Nat) (s : State) : Prop := isNext (runSteps n s) = true

/-! ### A core between two steps -/

/-- The core holds no note of a step (its notes stand empty between steps). -/
def clear (c : Core) : Bool := c.evs.isEmpty && c.outs.isEmpty && c.faults.isEmpty

/-- The core is not stalled and holds no note of a step. -/
def still (c : Core) : Bool := c.stall.isNone && clear c

/-- The note of n instances of an event of a core (R447). -/
def coreNote (key event inst n : Nat) : EvNote := ⟨some key, some (key / 17 / 12), ⟨event, inst, n⟩⟩

/-- No read of a beat, no step of an MX command and no bundle falls due in the running cycle. -/
def nothingRead (c : Core) (rc : Nat) : Bool :=
  c.mxs.all (fun r => decide (rc < r.done) || (r.stepAt rc).isNone) && c.vxs.all (fun r => !r.readsAt rc && !r.spent rc) &&
    (c.dueBundle rc).isNone

/-- An MX run but for the accumulators that it drains, which enter it when a drain starts (R79). -/
def bare (r : MxRun) : MxRun := { r with swaps := 0, hold := [] }

/-- t differs from s in the core of a key and in the notes of events at most. -/
def OnlyCore (s t : State) (key : Nat) : Prop :=
  (∀ k, k ≠ key → t.coreAt k = s.coreAt k) ∧ t = { s with cores := t.cores, evs := t.evs }

/-- s after messages of its firmware to other modules: t has their flits, and keeps them until they are acknowledged (R299). -/
def told (s t : State) : State :=
  { s with tx := t.tx, rot := t.rot, fab := { s.fab with sysOut := t.fab.sysOut, sysSeq := t.fab.sysSeq } }

/-- s after interrupts to its host: t has sent them, or holds them pending where their vectors are masked (R342, R375). -/
def signalled (s t : State) : State := { s with hostOut := t.hostOut, gate := { s.gate with pends := t.gate.pends } }

/-- Every bake of the named partitions that ran in s with a delivery tally below the limit, if one is given, on a core with
nothing in its FIFO, runs no more in t. -/
def BakesStopped (s t : State) (parts : Nat) (limit : Option Nat) : Prop :=
  ∀ key, (s.coreAt key).seq.run = true → (s.coreAt key).fifo = [] → parts.testBit (s.coreAt key).seq.part = true →
    (∀ l, limit = some l → (s.coreAt key).seq.tally < l) → (t.coreAt key).seq.run = false

/-- Tracing is off on the core (R449). -/
def untraced (c : Core) : Bool := !bitAt (c.reg 0x1880) 63

/-- The records of the stream table, free, occupied and retiring, are 262 144 together (R279, R362). -/
def StreamsBalance (s : State) : Prop := s.fld 0x110 20 0 + s.fld 0x110 41 21 + s.fld 0x110 62 42 = 262144

/-! ### Scalar commands (R198, R200) -/

/-- The commands that write a scalar register in their issue cycle: the core, the register, and the value that the table
of R198 gives it. -/
def scalarResult (c : Core) (i : Instr) : Option (CoreId × Nat × Word) :=
  match i with
  | .sli u sd imm => some (u, sd, imm.signExtend 64)
  | .slih u sd imm => some (u, sd, (imm ++ (c.s sd).setWidth 32 : BitVec 64))
  | .smov u sd sa => some (u, sd, c.s sa)
  | .sgetp u sd pn => some (u, sd, c.p pn)
  | .sadd u sd sa b => some (u, sd, c.s sa + c.qxVal b)
  | .ssub u sd sa b => some (u, sd, c.s sa - c.qxVal b)
  | .smin u sd sa b => some (u, sd, if (c.s sa).sle (c.qxVal b) then c.s sa else c.qxVal b)
  | .smax u sd sa b => some (u, sd, if (c.s sa).sle (c.qxVal b) then c.qxVal b else c.s sa)
  | .sand u sd sa b => some (u, sd, c.s sa &&& c.qxVal b)
  | .sor u sd sa b => some (u, sd, c.s sa ||| c.qxVal b)
  | .sxor u sd sa b => some (u, sd, c.s sa ^^^ c.qxVal b)
  | .sshl u sd sa b => some (u, sd, c.s sa <<< ((c.qxVal b).setWidth 8).toNat)
  | .sshr u sd sa b => some (u, sd, c.s sa >>> ((c.qxVal b).setWidth 8).toNat)
  | .ssra u sd sa b => some (u, sd, (c.s sa).sshiftRight ((c.qxVal b).setWidth 8).toNat)
  | .sext u sd sa imm =>
      let hi := (imm.extractLsb' 8 6).toNat
      let lo := (imm.extractLsb' 0 6).toNat
      if hi < lo then none
      else
        let v := (c.s sa).extractLsb' lo (hi + 1 - lo)
        some (u, sd, if imm.getLsbD 16 then v.signExtend 64 else v.setWidth 64)
  | _ => none

/-- The commands whose effect lands in a later running cycle, or at the end of the issue cycle: the core, the running
cycles until it lands, and the effect (R198, R200). -/
def scalarLater (s : State) (key : Nat) (i : Instr) : Option (CoreId × Nat × LateEff) :=
  let c := s.coreAt key
  let addr (sa : Nat) (imm : BitVec 32) : Nat := ((c.s sa + imm.signExtend 64).setWidth 19).toNat
  match i with
  | .smul u sd sa b => some (u, 2, .sreg sd (c.s sa * c.qxVal b))
  | .sld u sd sa imm => some (u, 0, .load sd (addr sa imm))
  | .sst u sa sb imm => some (u, 1, .store (addr sa imm) (c.s sb))
  | .csrr u sd imm =>
      let off := (imm.setWidth 24).toNat
      if imm.extractLsb' 30 2 = 0 then some (u, 12, .sreg sd (c.readReg (c.rc s.now) s.now off))
      else if imm.extractLsb' 30 2 = 1 then some (u, 12, .sreg sd (s.readCl u.die u.cluster off))
      else none
  | .csrw u sb imm =>
      let off := (imm.setWidth 24).toNat
      if imm.extractLsb' 30 2 = 0 then some (u, 12, .csrw false off (c.s sb))
      else if imm.extractLsb' 30 2 = 1 then some (u, 12, .csrw true off (c.s sb))
      else none
  | .qbind u qn pm =>
      some (u, 0, .bind qn (c.p pm) (if (c.p pm).getLsbD 63 then some (c.p ((pm + 1) % 64)) else none))
  | .qunbind u qn => some (u, 0, .bind qn (c.qb0 qn &&& (BitVec.allOnes 62).setWidth 64) none)
  | _ => none

/-! ### Matrix and vector commands (R77, R113) -/

/-- The MX commands by operand mode. -/
def mxOf (i : Instr) : Option (CoreId × MxMode × MxCmd) :=
  match i with
  | .mmaOs u c => some (u, .os, c)
  | .mmaWs u c => some (u, .ws, c)
  | .mmaIs u c => some (u, .is, c)
  | _ => none

/-- The VX commands by opcode. -/
def vxOf (i : Instr) : Option (CoreId × VxOp × VxCmd) :=
  match i with
  | .mov u c => some (u, .mov, c)
  | .add u c => some (u, .add, c)
  | .sub u c => some (u, .sub, c)
  | .mul u c => some (u, .mul, c)
  | .mulh u c => some (u, .mulh, c)
  | .adds u c => some (u, .adds, c)
  | .subs u c => some (u, .subs, c)
  | .fmaVs u c => some (u, .fmaVs, c)
  | .fmaSv u c => some (u, .fmaSv, c)
  | .fmaVvd u c => some (u, .fmaVvd, c)
  | .min u c => some (u, .min, c)
  | .max u c => some (u, .max, c)
  | .abs u c => some (u, .abs, c)
  | .neg u c => some (u, .neg, c)
  | .cmpEq u c => some (u, .cmp .eq, c)
  | .cmpNe u c => some (u, .cmp .ne, c)
  | .cmpLt u c => some (u, .cmp .lt, c)
  | .cmpLe u c => some (u, .cmp .le, c)
  | .cmpGt u c => some (u, .cmp .gt, c)
  | .cmpGe u c => some (u, .cmp .ge, c)
  | .cmpNlt u c => some (u, .cmp .nlt, c)
  | .cmpNle u c => some (u, .cmp .nle, c)
  | .cmpNgt u c => some (u, .cmp .ngt, c)
  | .cmpNge u c => some (u, .cmp .nge, c)
  | .sel u c => some (u, .sel, c)
  | .and u c => some (u, .and, c)
  | .or u c => some (u, .or, c)
  | .xor u c => some (u, .xor, c)
  | .andn u c => some (u, .andn, c)
  | .shl u c => some (u, .shl, c)
  | .shr u c => some (u, .shr, c)
  | .sra u c => some (u, .sra, c)
  | .cvt u c => some (u, .cvt, c)
  | .exp2 u c => some (u, .transc .exp2, c)
  | .log2 u c => some (u, .transc .log2, c)
  | .rcp u c => some (u, .transc .rcp, c)
  | .rsqrt u c => some (u, .transc .rsqrt, c)
  | .tanh u c => some (u, .transc .tanh, c)
  | .sigmoid u c => some (u, .transc .sigmoid, c)
  | .shufXor u c => some (u, .shufXor, c)
  | .shufRot u c => some (u, .shufRot, c)
  | .shufBc u c => some (u, .shufBc, c)
  | .perm u c => some (u, .perm, c)
  | .sred u c => some (u, .sred, c)
  | .unpack u c => some (u, .unpack, c)
  | .packBq u c => some (u, .packBq, c)
  | .qpack u c => some (u, .qpack, c)
  | .cvtr u c => some (u, .cvtr, c)
  | _ => none

end Sys2Proof
end

