-- ==== Sys2Proof/Certificates/Slice0/Obligations.lean ====
section
/-! DEFINITION. The statements for the provers. -/
open Sys2Proof Sys2Proof.Machine

/-! ### The queue and the outcomes -/

/-- With command c in front of the queue a step is exec of c with the queue's rest. -/
def Obligations.StepRunsTheFrontCommand : Prop :=
  ∀ (s : State) (c : Instr) (rest : List Instr), s.pending = c :: rest → step s = exec c { s with pending := rest }

/-! ### Messages of the command port -/

/-- A PATCH that reaches an idle core with an empty FIFO acts at once: it writes its value into parameter register PN; one whose
FIX bit is set keeps its value, and event 0x0F is counted; P63 keeps its value. While a bake runs the PATCH waits in the
FIFO (R29, R30, R181). Nothing else changes. A LAUNCH of group g by a partition that may launch it, on an idle core that is
ready, is owned by the partition and has an empty FIFO, starts a bake (R29, R174, R419, R441): S0-S15 become 0, P63 the
member chain, the sequencer stands at the template's START with kernel cycle 0 four running cycles later, and nothing else
changes. A template with V = 0 starts nothing, and event 0x0E is counted. Where a LAUNCH does not reach the sequencer: one
by a partition that may not launch the group sets HUB.GERR.LAUNCHDENY (R29, R30); on a core that another partition owns
event 0x3C is counted (R441); a core whose die or cluster is not ready takes none (R419), and no core takes one of a group
that reaches a unit whose fault is not yet recovered (R36, R40, R393). -/
def Obligations.PatchAndLaunchMessages : Prop :=
  (∀ (s : State) (u : CoreId) (m : PatchMsg) (key : Nat) (chain : List Nat),
    s.key u = some key → still (s.coreAt key) = true → (s.coreAt key).fifo = [] →
    s.addresses m.unit = true → s.chainTo u 6 m.unit = some chain →
    ((s.coreAt key).seq.run = true →
      exec (.patch u m) s = .next (s.setCoreAt key { s.coreAt key with fifo := [.patch m] })) ∧
    ((s.coreAt key).seq.run = false → m.pn ≤ 62 → ((s.coreAt key).reg 0x280).getLsbD m.pn = false →
      exec (.patch u m) s = .next (s.setCoreAt key ((s.coreAt key).setReg (8 * m.pn) m.val))) ∧
    ((s.coreAt key).seq.run = false → m.pn ≤ 62 → ((s.coreAt key).reg 0x280).getLsbD m.pn = true →
      exec (.patch u m) s =
        .next { s.setCoreAt key (s.coreAt key) with evs := s.evs ++ [coreNote key 0x0F 0 1] }) ∧
    ((s.coreAt key).seq.run = false → 62 < m.pn → exec (.patch u m) s = .next (s.setCoreAt key (s.coreAt key)))) ∧
  ((∀ (s : State) (u : CoreId) (m : LaunchMsg) (key g : Nat) (chain : List Nat),
    s.key u = some key → still (s.coreAt key) = true → (s.coreAt key).fifo = [] → (s.coreAt key).seq.run = false →
    s.addresses m.unit = true → s.chainTo u 6 m.unit = some chain →
    groupOf m.unit = some g → natBit (s.gdPmask g) m.part = true →
    s.fld 0x430010 (49 + u.die) (49 + u.die) = 1 →
    s.fld 0x430018 (12 * u.die + u.cluster) (12 * u.die + u.cluster) = 1 →
    fld ((s.coreAt key).reg 0x298) 3 0 = m.part → s.launchHeld g = false →
    ((s.coreAt key).ktV m.tmpl = true →
      ∃ c' : Core, exec (.launch u m) s = .next (s.setCoreAt key c') ∧
        (∀ n, n < 16 → c'.sreg n = 0) ∧ c'.p 63 = p63Of chain ∧
        (∀ off, (∀ n, n < 16 → off ≠ 0x200 + 8 * n) → off ≠ 0x1F8 → c'.reg off = (s.coreAt key).reg off) ∧
        c' = { s.coreAt key with
          regs := c'.regs, slog := [],
          seq := { run := true, tmpl := m.tmpl, gen := s.gdGen g, tag := (s.coreAt key).seq.tag,
                   k0 := (s.coreAt key).rc s.now + 4, last := (s.coreAt key).rc s.now + 4,
                   addr := (s.coreAt key).ktStart m.tmpl, skip := 0, group := g, part := m.part, tally := m.tally,
                   start := (s.coreAt key).rc s.now, quiesce := false, next := none } }) ∧
    ((s.coreAt key).ktV m.tmpl = false →
      exec (.launch u m) s =
        .next { s.setCoreAt key (s.coreAt key) with evs := s.evs ++ [coreNote key 0x0E 0 1] })) ∧
  (∀ (s : State) (u : CoreId) (m : LaunchMsg) (key g : Nat) (chain : List Nat),
    s.key u = some key → s.addresses m.unit = true → s.chainTo u 6 m.unit = some chain → groupOf m.unit = some g →
    (natBit (s.gdPmask g) m.part = false → exec (.launch u m) s = .next (s.setFld 0x138 1 1 1)) ∧
    (natBit (s.gdPmask g) m.part = true →
      (s.coreReady u = false ∨ s.launchHeld g = true → exec (.launch u m) s = .next s) ∧
      (s.coreReady u = true → s.launchHeld g = false → fld ((s.coreAt key).reg 0x298) 3 0 ≠ m.part →
        exec (.launch u m) s = .next { s with evs := s.evs ++ [⟨none, none, ⟨0x3C, m.part, 1⟩⟩] }))))

/-- An ABORT that reaches a core stops the bake of its group, if one runs there, and the core's units (R29, R102, R160, R202):
no command, no late effect and no transfer is left, accumulators are zeroed and weight and activation registers invalid,
every queue end is unbound and the channel buffers are empty; elements of the bake and of the group's generation go into the
gutter from then on; TAG and the scratchpad stay, and so does every register but the bindings' W0. Only the core and the
combining slots of its die (R166) change. A QUIESCE that reaches a core marks the bake that it
names, and no other, to end at its next yield point (R29, R177). -/
def Obligations.AbortStopsAndQuiesceMarksTheBake : Prop :=
  (∀ (s : State) (u : CoreId) (unit : UnitId) (key : Nat) (chain : List Nat),
    s.key u = some key → clear (s.coreAt key) = true → untraced (s.coreAt key) = true → (s.coreAt key).fifo = [] →
    (s.coreAt key).slog = [] → (s.coreAt key).clog = [] → s.addresses unit = true → s.chainTo u 6 unit = some chain →
    ((s.coreAt key).seq.run = false ∨ groupOf unit = none ∨ groupOf unit = some (s.coreAt key).seq.group) →
      ∃ (c' : Core) (t : State), exec (.abort u unit) s = .next t ∧
        t = { s with cores := (s.setCoreAt key c').cores, slots := t.slots, srcBufs := t.srcBufs } ∧
        c'.seq = { tag := (s.coreAt key).seq.tag } ∧ c'.stall = none ∧ c'.mxs = [] ∧ c'.vxs = [] ∧ c'.late = [] ∧
        c'.acc = [] ∧ c'.prods = [] ∧ c'.wreg = List.replicate 8 none ∧ c'.areg = List.replicate 8 none ∧
        c'.xfers = [] ∧ c'.chan = [] ∧ (∀ q, q < 48 → c'.qkind q = 0) ∧ c'.mem = (s.coreAt key).mem ∧
        c'.gutter = (s.coreAt key).gutter ++
          (if (s.coreAt key).seq.run then [((s.coreAt key).seq.group, (s.coreAt key).seq.gen)] else []) ++
          (match groupOf unit with | some g => [(g, s.gdGen g)] | none => []) ∧
        (∀ off, (∀ q, q < 48 → off ≠ 0x1000 + 32 * q) → c'.reg off = (s.coreAt key).reg off) ∧
        (∀ d k n, d ≠ u.die → k < 12 → n < 64 → t.slot d k n = s.slot d k n)) ∧
  (∀ (s : State) (u : CoreId) (unit : UnitId) (key : Nat) (chain : List Nat),
    s.key u = some key → clear (s.coreAt key) = true → s.addresses unit = true → s.chainTo u 6 unit = some chain →
    ((s.coreAt key).seq.run = true → (groupOf unit = none ∨ groupOf unit = some (s.coreAt key).seq.group) →
      exec (.quiesce u unit) s =
        .next (s.setCoreAt key { s.coreAt key with seq := { (s.coreAt key).seq with quiesce := true } })) ∧
    ((s.coreAt key).seq.run = false ∨ (∃ g, groupOf unit = some g ∧ (s.coreAt key).seq.group ≠ g) →
      exec (.quiesce u unit) s = .next (s.setCoreAt key (s.coreAt key))))

/-- A message with a delivery tally that is neither late nor below 16384 waits at the hub while cadence lock holds and its group
is not suspended (R317, R384, R419). A waiting message whose die cycle has come leaves the queue and acts as the same
message without a tally; a PATCH without a tally to one core acts as the core's own command. -/
def Obligations.MessagesWaitForTheirTally : Prop :=
  (∀ (s : State) (m : HubMsg) (t : Nat), m.tally = some t → s.tally + 2 < t → 16384 ≤ t → s.fld 0x430010 60 60 = 1 →
    s.suspended m = false →
    exec (.messageDelivery (some m)) s = .next { s with hubQ := s.hubQ ++ [⟨m, none⟩] }) ∧
  (∀ (s : State) (q : HubWait) (d : Nat), nextHub s.hubQ = some q → q.due = some d → d ≤ s.now →
    (∀ l, q.msg.body ≠ .launch l) →
    exec (.messageDelivery none) s =
      exec (.messageDelivery (some { q.msg with tally := none })) { s with hubQ := s.hubQ.erase q }) ∧
  (∀ (s : State) (m : HubMsg) (u : CoreId) (key : Nat) (p : PatchMsg), s.key u = some key → m.tally = none →
    m.body = .patch p → p.unit = s.unitOf u → exec (.messageDelivery (some m)) s = exec (.patch u p) s)

/-! ### Bundles and proof points -/

/-- A bundle without SX and QX commands that is due issues its MX and VX commands: LAST becomes the running cycle, TAG the
bundle's, the address moves past it and event 0x02 is counted (R167-R172); neither registers nor memory change, where no
transfer emits in the cycle, no word of the scratchpad is in error and R111 allows the VX command. Where the channel
operands of its cycle or data that it awaits are not there the core stalls with the bundle held, and nothing else changes
(R158, R216, R217). A
stalled core resumes in the first die cycle in which no cause is pending (R218): without a held bundle or operation its
stall ends and nothing else changes. While a cause is pending, and no die cycle of the tick is left, it stays stalled. -/
def Obligations.BundlesIssueAndProofPointsResume : Prop :=
  (∀ (s s1 : State) (u : CoreId) (key rc : Nat) (b : Bundle),
    s.key u = some key → still (s.coreAt key) = true → untraced (s.coreAt key) = true →
    rc = (s.coreAt key).rc s.now → b = (s.coreAt key).bundle → (s.coreAt key).seq.pre = false →
    (s.coreAt key).hasBundle = true → (s.coreAt key).seq.skip = 0 → (s.coreAt key).seq.last + b.delta ≤ rc →
    b.sx = none → b.qx = none → (s.coreAt key).ecc = [] → s.nextEmit key = none →
    (∀ v, b.vx = some v → ∀ q, (s.coreAt key).vxPrev = some q →
      q.nextAt (vxRun (s.coreAt key) rc v.1 v.2 false).latDep ≤ rc) →
    s1 = s.setCoreAt key ((s.coreAt key).issueMxVx rc b) →
    ((s.coreAt key).needsMet (s1.cycleNeeds key rc) = true → s.lateData key rc = false →
      ∃ (t : State) (c' : Core), exec (.bundleIssue u) s = .next t ∧ OnlyCore s t key ∧ t.coreAt key = c' ∧
        t.evs = s.evs ++ [coreNote key 0x02 0 1] ∧
        c' = { s.coreAt key with
          mxAt := c'.mxAt, vxAt := c'.vxAt, mxs := c'.mxs, vxs := c'.vxs, vxPrev := c'.vxPrev,
          seq := { (s.coreAt key).seq with last := rc, tag := b.tag, addr := (s.coreAt key).seq.addr + b.size } } ∧
        (b.mx = none → c'.mxs = (s.coreAt key).mxs ∧ c'.mxAt = (s.coreAt key).mxAt) ∧
        (b.vx = none → c'.vxs = (s.coreAt key).vxs ∧ c'.vxAt = (s.coreAt key).vxAt ∧ c'.vxPrev = (s.coreAt key).vxPrev) ∧
        (b.mx.isSome = true → c'.mxs.length = (s.coreAt key).mxs.length + 1)) ∧
    ((s.coreAt key).needsMet (s1.cycleNeeds key rc) = false ∨ s.lateData key rc = true →
      exec (.bundleIssue u) s = .next (s.setCoreAt key { s.coreAt key with
        stall := some { queues := s1.cycleNeeds key rc, sync := none, tag := false, emit := false,
                        held := true, since := s.tally, fresh := true } }))) ∧
  (∀ (s : State) (u : CoreId) (key : Nat) (st : Stall),
    s.key u = some key → clear (s.coreAt key) = true → (s.coreAt key).stall = some st → st.held = false →
    st.emit = false → (st.fresh = true ∨ untraced (s.coreAt key) = true) →
    (s.causes key st = [] →
      exec (.proofPointResume u) s = .next (s.setCoreAt key { s.coreAt key with stall := none })) ∧
    (s.causes key st ≠ [] → s.left = 0 → exec (.proofPointResume u) s = .next s))

/-! ### Scalar commands -/

/-- Each scalar command of one result (R198) writes that result into its destination register in its issue cycle, on a core that
is not stalled and whose QX has issued nothing in the cycle, and changes nothing else: no other register of the core, none
of its parameter registers, no memory, no other core and nothing outside the cores. -/
def Obligations.ScalarCommandsWriteTheirResult : Prop :=
  ∀ (s : State) (i : Instr) (u : CoreId) (key sd : Nat) (v : Word),
    s.key u = some key → still (s.coreAt key) = true →
    (s.coreAt key).qxAt ≠ (s.coreAt key).rc s.now + 1 →
    (s.coreAt key).slog.find? (fun e => e.r == sd) = none →
    scalarResult (s.coreAt key) i = some (u, sd, v) →
    ∃ c' : Core, exec i s = .next (s.setCoreAt key c') ∧ c'.sreg sd = v ∧
      (∀ off, off ≠ 0x200 + 8 * sd → c'.reg off = (s.coreAt key).reg off) ∧
      c' = { s.coreAt key with qxAt := (s.coreAt key).rc s.now + 1, regs := c'.regs, slog := c'.slog }

/-- SMUL, SLD, SST, CSRR, CSRW, QBIND and QUNBIND (R198) note their effect to land in the running cycle that R200 gives, and
change nothing else in their issue cycle. A delayed write of a scalar register (SMUL, SLD, CSRR, SRED) that is due lands:
the register, which nothing else has written in the cycle, takes the value, no other register and no memory changes, and the
write leaves the list (R182, R200). A due CSRW writes its register of the CORE or CL block. -/
def Obligations.LateEffectsAreNotedAndLand : Prop :=
  (∀ (s : State) (i : Instr) (u : CoreId) (key after : Nat) (e : LateEff),
    s.key u = some key → still (s.coreAt key) = true →
    (s.coreAt key).qxAt ≠ (s.coreAt key).rc s.now + 1 →
    scalarLater s key i = some (u, after, e) →
    exec i s = .next (s.setCoreAt key { s.coreAt key with
      qxAt := (s.coreAt key).rc s.now + 1,
      late := (s.coreAt key).late ++ [⟨(s.coreAt key).rc s.now + after, (s.coreAt key).rc s.now, e⟩] })) ∧
  (∀ (s : State) (u : CoreId) (key : Nat) (l : Late),
    s.key u = some key → still (s.coreAt key) = true →
    (s.coreAt key).dueWrite ((s.coreAt key).rc s.now) = some l →
    (∀ r v, l.eff = .sreg r v ∨ l.eff = .sred r v → (s.coreAt key).slog.find? (fun e => e.r == r) = none →
      ∃ t c', exec (.delayedRegisterWrite u) s = .next t ∧ OnlyCore s t key ∧ t.evs = s.evs ∧ t.coreAt key = c' ∧
        c'.sreg r = v ∧ (∀ off, off ≠ 0x200 + 8 * r → c'.reg off = (s.coreAt key).reg off) ∧
        c' = { s.coreAt key with late := (s.coreAt key).late.erase l, regs := c'.regs, slog := c'.slog }) ∧
    (∀ cl off v, l.eff = .csrw cl off v →
      exec (.delayedRegisterWrite u) s =
        .next ((s.setCoreAt key { s.coreAt key with late := (s.coreAt key).late.erase l }).programWrite key cl off v)))

/-! ### Matrix and vector commands -/

/-- An MX command issued on a core that is not stalled starts a run with the fields that the parameter registers hold then (R79,
R87, R191): S = P[PSD][19:0] + 1 steps in periods of D = P[PSD][39:20] + 1, the anchor, the tensor scales and the FX width;
its results are as specified unless R78, R80 or R191 is violated, and it alone is added to the runs. It issues ahead of an
operation of the cycle that reads through SX-R (R145). Where a channel operand or credit of the cycle is not there the core
stalls (R158); else nothing else changes. -/
def Obligations.MatrixCommandsStartARun : Prop :=
  ∀ (s : State) (i : Instr) (u : CoreId) (mode : MxMode) (cmd : MxCmd) (key rc : Nat) (c : Core),
    mxOf i = some (u, mode, cmd) → s.key u = some key → s.coreAt key = c → still c = true → rc = c.rc s.now →
    Core.beforeSx Core.mxAt c ≠ rc + 1 →
    ∃ (r : MxRun) (c' : Core) (s1 : State), c'.mxs.getLast? = some r ∧ s1 = s.setCoreAt key c' ∧
      r.mode = mode ∧ r.cmd = cmd ∧ r.c0 = rc ∧ r.steps = ((c.p cmd.psd).setWidth 20).toNat + 1 ∧
      r.period = ((c.p cmd.psd).extractLsb' 20 20).toNat + 1 ∧ r.len = max r.period 16 ∧
      r.anchor = ((c.p cmd.pa).setWidth 11).toInt ∧ r.tws = c.p cmd.ptw ∧ r.tas = c.p cmd.pta ∧
      r.fx = ((c.p cmd.pf).setWidth 6).toNat ∧ r.swaps = 0 ∧ r.hold = [] ∧ r.done = 0 ∧ r.drainP = 0 ∧ r.drainK = 0 ∧
      r.noop = false ∧ c' = { c with mxAt := rc + 1, mxs := c'.mxs } ∧
      ((∀ q, q ∈ c.mxs → q.c0 + q.periods * q.len ≤ rc) → (∀ a, usesLoading c rc mode cmd a = false) → r.period ∣ r.steps →
        r.unpred = [] ∧ c'.mxs = c.mxs ++ [r]) ∧
      exec i s = .next
        (if c'.needsMet (s1.cycleNeeds key rc) then s1
         else s.setCoreAt key { c' with
           stall := some { queues := s1.cycleNeeds key rc, sync := none, tag := false, emit := false, held := false,
                           since := s.tally, fresh := true } })

/-- A push of the oldest run that is due, and due no later than any other run's, in a cycle with nothing to read and with its
credits there, moves the run on: to the next push, to the next period after the last push of one, and off the list after
the last of the command (R79, R81); what drains entered the runs when their drains started (R79). Nothing
outside the core changes but notes of events and what its pushes send; OVF and POI bits are only set (R98), and memory
changes only where a destination queue end is a ring. -/
def Obligations.MxDrainMovesTheOldestRun : Prop :=
  ∀ (s : State) (u : CoreId) (key rc : Nat) (c : Core) (r : MxRun) (rest : List MxRun),
    s.key u = some key → s.coreAt key = c → still c = true → rc = c.rc s.now → c.mxs = r :: rest →
    nothingRead c rc = true → r.nextPush ≤ rc → (∀ q, q ∈ rest → r.nextPush ≤ q.nextPush) →
    c.needsMet (mxPushNeeds c r) = true →
    ∃ t, exec (.mxDrain u) s = .next t ∧ (∀ k, k ≠ key → t.coreAt k = s.coreAt k) ∧ t.regs = s.regs ∧
      t.pending = s.pending ∧
      (if r.drainK + 1 = r.pushes then
        (if r.drainP + 1 = r.periods then (t.coreAt key).mxs.map bare = rest.map bare
         else ∃ o p, (t.coreAt key).mxs.map bare =
          bare { r with drainP := r.drainP + 1, drainK := 0, ovf := o, poi := p } :: rest.map bare)
       else r.drainP ≠ r.periods →
        ∃ o p, (t.coreAt key).mxs.map bare =
          bare { r with drainK := r.drainK + 1, ovf := o, poi := p } :: rest.map bare) ∧
      (∀ a, a < 4 → c.reg (0x800 + 8 * a) &&& (t.coreAt key).reg (0x800 + 8 * a) = c.reg (0x800 + 8 * a) ∧
        c.reg (0x820 + 8 * a) &&& (t.coreAt key).reg (0x820 + 8 * a) = c.reg (0x820 + 8 * a)) ∧
      ((∀ q, c.qkind q ≠ 1) → (t.coreAt key).mem = c.mem)

/-- What QX commands leave for later takes place (R198, R200), and a drained push carries its lanes (R82, R92). In its issue cycle
SMUL leaves the product for its register two running cycles later; CSRR the register that it reads, and CSRW its value, twelve
later; SST its word for the end of the next running cycle; SLD its read, and QBIND and QUNBIND their binding, for the end of this
one; a CSRR or CSRW of a reserved block does nothing more. DELAYED_REGISTER_WRITE gives a register its value when it is due,
clears the bits of CORE.MXOVF or CORE.MXPZN that a CSRW writes as 1, and writes the word of a combining slot as
COMBINING_SLOT_WRITE does. At the end of its running cycle the word of an SST stands in memory, the bytes that an SLD has read
wait for their register for its latency, and a queue end is bound anew. MX_DRAIN of a run of one array, in a format but BQ8 and
with no status due, pushes the next four lanes that its drain holds to its ring: the bytes stand in the next slot, and the write
position is one further. -/
def Obligations.LateEffectsTakePlace : Prop :=
  (∀ (s : State) (u : CoreId) (key rc : Nat) (c : Core) (out : Nat → LateEff → Core),
    s.key u = some key → s.coreAt key = c → rc = c.rc s.now → still c = true → c.qxAt ≠ rc + 1 →
    (∀ n e, out n e = { c with qxAt := rc + 1, late := c.late ++ [⟨rc + n, rc, e⟩] }) →
    (∀ sd sa b, exec (.smul u sd sa b) s = .next (s.setCoreAt key (out 2 (.sreg sd (c.s sa * c.qxVal b))))) ∧
    (∀ sd sa imm, exec (.sld u sd sa imm) s =
      .next (s.setCoreAt key (out 0 (.load sd ((c.s sa + imm.signExtend 64).setWidth 19).toNat)))) ∧
    (∀ sa sb imm, exec (.sst u sa sb imm) s =
      .next (s.setCoreAt key (out 1 (.store ((c.s sa + imm.signExtend 64).setWidth 19).toNat (c.s sb))))) ∧
    (∀ sd (imm : BitVec 32),
      (imm.extractLsb' 30 2 = 0 → exec (.csrr u sd imm) s =
        .next (s.setCoreAt key (out 12 (.sreg sd (c.readReg rc s.now (imm.setWidth 24).toNat))))) ∧
      (imm.extractLsb' 30 2 = 1 → exec (.csrr u sd imm) s =
        .next (s.setCoreAt key (out 12 (.sreg sd (s.readCl u.die u.cluster (imm.setWidth 24).toNat))))) ∧
      (2 ≤ (imm.extractLsb' 30 2).toNat → exec (.csrr u sd imm) s = .next (s.setCoreAt key { c with qxAt := rc + 1 }))) ∧
    (∀ sb (imm : BitVec 32),
      ((imm.extractLsb' 30 2).toNat < 2 → exec (.csrw u sb imm) s =
        .next (s.setCoreAt key (out 12 (.csrw (imm.getLsbD 30) (imm.setWidth 24).toNat (c.s sb))))) ∧
      (2 ≤ (imm.extractLsb' 30 2).toNat → exec (.csrw u sb imm) s = .next (s.setCoreAt key { c with qxAt := rc + 1 }))) ∧
    (∀ qn pm, exec (.qbind u qn pm) s = .next (s.setCoreAt key
      (out 0 (.bind qn (c.p pm) (if (c.p pm).getLsbD 63 then some (c.p ((pm + 1) % 64)) else none))))) ∧
    (∀ qn, exec (.qunbind u qn) s =
      .next (s.setCoreAt key (out 0 (.bind qn (c.reg (0x1000 + 32 * qn) &&& 0x3FFFFFFFFFFFFFFF#64) none))))) ∧
  (∀ (s : State) (u : CoreId) (key due issue : Nat) (c : Core) (e : LateEff),
    s.key u = some key → s.coreAt key = c → still c = true → c.slog = [] → c.sticky = [] → c.late = [⟨due, issue, e⟩] →
    due ≤ c.rc s.now →
    (∀ r v, e = .sreg r v → ∃ t, exec (.delayedRegisterWrite u) s = .next t ∧ OnlyCore s t key ∧ t.evs = s.evs ∧
      (t.coreAt key).sreg r = v ∧ (t.coreAt key).late = [] ∧
      (∀ off, off ≠ 0x200 + 8 * r → (t.coreAt key).reg off = c.reg off) ∧ (t.coreAt key).mem = c.mem) ∧
    (∀ n v, n < 8 → e = .csrw false (0x800 + 8 * n) v → ∃ t, exec (.delayedRegisterWrite u) s = .next t ∧ OnlyCore s t key ∧
      t.evs = s.evs ∧ (t.coreAt key).reg (0x800 + 8 * n) = c.reg (0x800 + 8 * n) &&& ~~~v ∧ (t.coreAt key).late = [] ∧
      (∀ off, off ≠ 0x800 + 8 * n → (t.coreAt key).reg off = c.reg off) ∧ (t.coreAt key).mem = c.mem) ∧
    (∀ n w v, n < 64 → w < 2 → e = .csrw true (0x2000 + 32 * n + 8 * w) v → ∃ t t', exec (.delayedRegisterWrite u) s = .next t ∧
      exec (.combiningSlotWrite u.die u.cluster n w v) s = .next t' ∧ t = { s with cores := t.cores, regs := t'.regs } ∧
      (∀ k, k ≠ key → t.coreAt k = s.coreAt k) ∧ (t.coreAt key).late = [] ∧ (t.coreAt key).regs = c.regs ∧
      (t.coreAt key).mem = c.mem)) ∧
  (∀ (c : Core) (rc due issue : Nat) (e : LateEff), c.late = [⟨due, issue, e⟩] → due ≤ rc →
    (∀ sd a bs, e = .load sd a → c.ecc = [] → bs = (c.readFrom 12 a 8).1 →
      (c.landQx rc).late = [⟨rc + regionLat false a 8 + 1, issue, .sreg sd (BitVec.ofNat 64 (natLE bs))⟩] ∧
      (c.landQx rc).regs = c.regs ∧ (c.landQx rc).mem = c.mem) ∧
    (∀ a v, e = .store a v → c.wlog = [] → (c.landQx rc).late = [] ∧ (c.landQx rc).regs = c.regs ∧
      (∀ i, i < 8 → a + i < 0x60000 → (c.landQx rc).mem.byte (a + i) = v.extractLsb' (8 * i) 8) ∧
      (∀ x, x < a ∨ a + 8 ≤ x → (c.landQx rc).mem.byte x = c.mem.byte x)) ∧
    (∀ n w0 w2, e = .bind n w0 w2 → (c.landQx rc).late = [] ∧ (c.landQx rc).reg (0x1000 + 32 * n) = w0 ∧
      (∀ w, w2 = some w → (c.landQx rc).reg (0x1010 + 32 * n) = w) ∧
      (w0.extractLsb' 62 2 = 1 → (c.landQx rc).qrd n = 0 ∧ (c.landQx rc).qwr n = 0) ∧
      (w0.extractLsb' 62 2 = 2 → (c.landQx rc).chanIn n = []) ∧
      (w0.extractLsb' 62 2 = 3 → (c.landQx rc).qwr n = 32) ∧ (c.landQx rc).mem = c.mem ∧
      (∀ off, off ≠ 0x1000 + 32 * n → (off ≠ 0x1010 + 32 * n ∨ w2 = none) → (c.landQx rc).reg off = c.reg off))) ∧
  (∀ (s : State) (u : CoreId) (key rc a q : Nat) (c : Core) (r : MxRun) (h : Draining),
    s.key u = some key → s.coreAt key = c → still c = true → rc = c.rc s.now → nothingRead c rc = true → c.mxs = [r] →
    r.nextPush ≤ rc → r.noop = false → r.unpred = [] → r.arrays = [a] → r.cmd.ofmt ≠ .bq8 →
    (r.cmd.ofmt = .raw128 → r.drainK ≠ 15) → q = r.cmd.qo + a → c.qkind q = 1 → c.qbad q = false →
    c.qesize q = 4 * outBytes r.cmd.ofmt → c.wlog = [] → h.valid = true →
    r.hold.find? (fun x => x.period == r.drainP && x.arr == a) = some h →
    ∃ t, exec (.mxDrain u) s = .next t ∧ (t.coreAt key).qwr q = (c.qwr q + 1) % c.qslots q ∧
      (∀ i j x, i < 4 → j < outBytes r.cmd.ofmt → x = c.slotAddr q (c.qwr q % c.qslots q) + outBytes r.cmd.ofmt * i + j →
        x < 0x60000 → (t.coreAt key).mem.byte x =
          BitVec.ofNat 8 ((drainLane r (h.lanes.getD (4 * r.drainK + i) {})).bits / 2 ^ (8 * j))) ∧
      (∀ x, (x < c.slotAddr q (c.qwr q % c.qslots q) ∨ c.slotAddr q (c.qwr q % c.qslots q) + c.qesize q ≤ x) →
        (t.coreAt key).mem.byte x = c.mem.byte x))

/-- A VX command issued on a core that is not stalled starts a run with the fields that the parameter registers hold then (R104,
R107, R110): N = P[PL][23:0] lanes in ceil(N / lanes of a beat) beats, its addresses from bits [18:0] of the registers that
name them. One with N = 0 or of a reserved encoding starts nothing; one earlier than R111 allows after the command before it
leaves its own beats and those of that command unpredictable, written or still to come. It issues ahead of an operation of
the cycle that reads through SX-R (R145). Where a channel operand or credit of the cycle is not there the core stalls
(R158); else nothing else changes. -/
def Obligations.VectorCommandsStartARun : Prop :=
  ∀ (s : State) (i : Instr) (u : CoreId) (op : VxOp) (cmd : VxCmd) (key rc : Nat) (c : Core),
    vxOf i = some (u, op, cmd) → s.key u = some key → s.coreAt key = c → still c = true → rc = c.rc s.now →
    Core.beforeSx Core.vxAt c ≠ rc + 1 → c.ecc = [] →
    ∃ (r : VxRun) (c' : Core) (s1 : State), s1 = s.setCoreAt key c' ∧
      r.op = op ∧ r.cmd = cmd ∧ r.c0 = rc ∧ r.n = ((c.p cmd.pl).setWidth 24).toNat ∧ r.py = c.p cmd.py ∧
      r.beats = (if op = .sred then min 1 r.n else (r.n + vxLanes op cmd - 1) / vxLanes op cmd) ∧
      (∀ p, cmd.sa = .addr p → r.addrA = ((c.p p).setWidth 19).toNat) ∧
      (∀ p, cmd.sb = .addr p → r.addrB = ((c.p p).setWidth 19).toNat) ∧
      (∀ p, cmd.dst = .addr p → r.addrD = ((c.p p).setWidth 19).toNat) ∧
      r.next = 0 ∧ r.written = 0 ∧ r.wait = [] ∧ r.fill = [] ∧ r.noop = false ∧ r.unpred = false ∧
      c' = { c with vxAt := rc + 1, vxs := c'.vxs, vxPrev := c'.vxPrev, mem := c'.mem, fctr := c'.fctr } ∧
      (vxReserved c op cmd = true ∨ r.n = 0 → c'.vxs = c.vxs ∧ c'.vxPrev = c.vxPrev ∧ c'.mem = c.mem ∧ c'.fctr = c.fctr) ∧
      (vxReserved c op cmd = false → r.n ≠ 0 → c'.vxPrev = some r ∧
        ((∀ q, c.vxPrev = some q → q.c0 + q.beats * q.cpb + (q.latDep - r.latDep) ≤ rc) →
          c'.vxs = c.vxs ++ [r] ∧ c'.mem = c.mem ∧ c'.fctr = c.fctr) ∧
        (∀ q, c.vxPrev = some q → rc < q.c0 + q.beats * q.cpb + (q.latDep - r.latDep) →
          c'.vxs = c.vxs.map (fun x => if x.c0 = q.c0 then { x with unpred := true } else x) ++
            [{ r with unpred := true }])) ∧
      exec i s = .next
        (if c'.needsMet (s1.cycleNeeds key rc) then s1
         else s.setCoreAt key { c' with
           stall := some { queues := s1.cycleNeeds key rc, sync := none, tag := false, emit := false, held := false,
                           since := s.tally, fresh := true } })

/-- A beat that is due for an address destination, in a cycle with nothing to read, is written (R106, R110): its bytes from the
address of the command plus the beat's position, no other byte of the scratchpad changes but one written earlier in the
cycle by a port that R145 puts behind, and no other core; where nothing else has been written in the cycle (R141) every byte
below 0x6_0000 (R139) takes its value. The run counts the beat, and leaves the list after its last. -/
def Obligations.VxBeatWriteStores : Prop :=
  ∀ (s : State) (u : CoreId) (key rc : Nat) (c : Core) (r : VxRun) (b : VxBeat) (p : Nat),
    s.key u = some key → s.coreAt key = c → still c = true → rc = c.rc s.now → nothingRead c rc = true →
    vxDueRun c rc = some (r, b) → r.cmd.dst = .addr p → b.valid = true → (vxResult r b).valid = true →
    r.noop = false → r.unpred = false → r.op ≠ .qpack → r.op ≠ .sred → (vxResult r b).out.bytes.length ≤ 256 →
    ∃ t, exec (.vxBeatWrite u) s = .next t ∧ OnlyCore s t key ∧
      (∀ a, (∀ j v, (vxResult r b).out.bytes[j]? = some (some v) → a ≠ r.addrD + r.dPos b.k + j) →
        (∀ w, w ∈ c.wlog → ∀ z, z ∈ w.olds → z.1 ≠ a) → (t.coreAt key).mem.byte a = c.mem.byte a) ∧
      (c.wlog = [] → ∀ j v, (vxResult r b).out.bytes[j]? = some (some v) → r.addrD + r.dPos b.k + j < 0x60000 →
        (t.coreAt key).mem.byte (r.addrD + r.dPos b.k + j) = v) ∧
      (t.coreAt key).regs = c.regs ∧
      (r.written + 1 = r.beats → (t.coreAt key).vxs = c.vxs.erase r) ∧
      (r.written + 1 ≠ r.beats → ∃ r', (t.coreAt key).vxs = c.vxs.replace r r' ∧ r'.written = r.written + 1 ∧
        r'.wait = r.wait.drop 1 ∧ r'.next = r.next ∧ r'.fill = r.fill)

/-! ### Synchronisation -/

/-- SIGNAL and RESET (R268): to an object of a die of this module the operation travels, six die cycles to the own die and the
table's MIN to another, carrying the bake's partition, group and generation; a reference that names no object does nothing;
one of another module leaves as a signal flit; one outside space 2 is refused and counted (R262). The core only marks its QX
issue. BARRIER.D (R275) sends its arrival to object 0 of the group's namespace and stalls the core until the barrier
completes. -/
def Obligations.SignalsAndArrivalsTravel : Prop :=
  (∀ (s : State) (i : Instr) (u : CoreId) (r : SyncRef) (op : SyncOp) (key : Nat) (c : Core),
    s.key u = some key → s.coreAt key = c → still c = true → c.qxAt ≠ c.rc s.now + 1 →
    ((∃ v, i = .signal u r v ∧ op = .inc (c.syncVal v)) ∨ (i = .reset u r ∧ op = .reset)) →
    (s.place c.p r = .none → exec i s = .next (s.setCoreAt key { c with qxAt := c.rc s.now + 1 })) ∧
    (∀ m d n, s.place c.p r = .object m d n → s.answers m = true →
      exec i s = .next { s.setCoreAt key { c with qxAt := c.rc s.now + 1 } with
        syncMsgs := s.syncMsgs ++ [{
          due := if d = u.die then s.now + 6 else s.now + s.tmin (ddOff u.die d), die := d, index := n, op := op,
          part := c.part, src := s.me, unit := s.unitOf u, group := c.seq.group, gen := c.seq.gen }] }) ∧
    (∀ m d n, s.place c.p r = .object m d n → s.answers m = false →
      exec i s = .next ((s.setCoreAt key { c with qxAt := c.rc s.now + 1 }).sendFlits (some u.die)
        [signalFlit s.me s.cycle u c.part c.seq.group c.seq.gen m (objOff d n) op])) ∧
    (∀ m off, s.place c.p r = .refused m off → s.answers m = true →
      exec i s = .next ((s.setCoreAt key { c with qxAt := c.rc s.now + 1 }).refuse 2 true c.part off (s.unitOf u)))) ∧
  (∀ (s : State) (u : CoreId) (g key m d n : Nat) (c : Core),
    s.key u = some key → s.coreAt key = c → still c = true → c.qxAt ≠ c.rc s.now + 1 →
    s.nsObject g 0 = some (m, d, n) → s.answers m = true →
    ∃ t, exec (.barrierD u g) s = .next t ∧ (∀ k, k ≠ key → t.coreAt k = s.coreAt k) ∧
      t.coreAt key = { c with
        qxAt := c.rc s.now + 1,
        stall := some { queues := [], sync := some (.barrier g none), tag := false, emit := false, held := false,
                        since := s.tally, fresh := true } } ∧
      t = { s with cores := t.cores, syncMsgs := s.syncMsgs ++ [{
        due := if d = u.die then s.now + 6 else s.now + s.tmin (ddOff u.die d), die := d, index := n, op := .barrier g,
        part := c.part, src := s.me, unit := s.unitOf u, group := c.seq.group, gen := c.seq.gen }] })

/-- A WAIT on an object of its own die that a window lets it read (R269) completes at once when the value that the core sees has
reached the target, and stalls the core otherwise; one on an object of another die of the module stalls until its read has
travelled both ways; one without an object completes. Nothing but the core changes. An object that no window admits reads as
0, and the refusal is counted (R262). The reply to a WAIT's remote read, once both travel times have passed, brings the
value as it stood one travel time before (R269), or 0 where the read was refused (R270); only the stalled core changes. -/
def Obligations.WaitsCompleteOrStall : Prop :=
  (∀ (s : State) (u : CoreId) (r : SyncRef) (v : SyncVal) (key : Nat) (c c1 : Core),
    s.key u = some key → s.coreAt key = c → still c = true → c.qxAt ≠ c.rc s.now + 1 →
    c1 = { c with qxAt := c.rc s.now + 1 } →
    (s.place c.p r = .none → exec (.wait u r v) s = .next (s.setCoreAt key c1)) ∧
    (∀ m n, s.place c.p r = .object m u.die n → s.answers m = true →
      s.admits 2 c.part s.me (objOff u.die n) 4 false = false → c.syncVal v = 0 →
      exec (.wait u r v) s = .next ((s.setCoreAt key c1).refuse 2 false c.part (objOff u.die n) (s.unitOf u))) ∧
    (∀ m d n, s.place c.p r = .object m d n → s.answers m = true → s.admits 2 c.part s.me (objOff d n) 4 false = true →
      (d = u.die → c.syncVal v ≤ (s.obj d n).seen s.now → exec (.wait u r v) s = .next (s.setCoreAt key c1)) ∧
      (d = u.die → (s.obj d n).seen s.now < c.syncVal v → ∃ t, exec (.wait u r v) s = .next t ∧ OnlyCore s t key ∧
        t.evs = s.evs ∧ t.coreAt key = { c1 with
          stall := some { queues := [], sync := some (.own n (c.syncVal v) true), tag := false, emit := false,
                          held := false, since := s.tally, fresh := true } }) ∧
      (d ≠ u.die → ∃ t, exec (.wait u r v) s = .next t ∧ OnlyCore s t key ∧ t.evs = s.evs ∧
        t.coreAt key = { c1 with
          stall := some {
            queues := [], sync := some (.remote m d n (c.syncVal v) true
              (s.now + s.tmin (ddOff u.die d) + s.tmin (ddOff d u.die)) none),
            tag := false, emit := false, held := false, since := s.tally, fresh := true } }))) ∧
  (∀ (s : State) (u : CoreId) (v : BitVec 32) (key : Nat) (c : Core) (st : Stall) (m d i t due : Nat) (adm : Bool),
    s.key u = some key → s.coreAt key = c → c.stall = some st → st.sync = some (.remote m d i t adm due none) →
    due ≤ s.now →
    exec (.syncWaitReadReply u v) s = .next (s.setCoreAt key { c with
      stall := some { st with sync := some (.remote m d i t adm due (some (
        if !adm then 0 else if s.answers m then (s.obj d i).seen (s.now - s.tmin (ddOff d u.die)) else v.toNat))) } }))

/-- SKIP makes the next n bundles no-ops where its condition holds, and the longer of two SKIPs counts (R184); END chooses the
successor NT or NF by its condition, for the yield point after its cycle (R175). Neither changes anything else; END is
stated for a group that one partition may launch, so that no other bake is scheduled (R372). -/
def Obligations.SkipAndEndSetTheSequencer : Prop :=
  ∀ (s : State) (u : CoreId) (x : Test) (key : Nat) (c : Core),
    s.key u = some key → s.coreAt key = c → still c = true → untraced c = true → c.qxAt ≠ c.rc s.now + 1 →
    (∀ n, exec (.skip u x n) s = .next (s.setCoreAt key { c with
      qxAt := c.rc s.now + 1, seq := if c.test x then { c.seq with skip := max c.seq.skip n } else c.seq })) ∧
    (popCount (s.gdPmask c.seq.group) 16 < 2 → ∀ nt nf, exec (.endT u x nt nf) s = .next (s.setCoreAt key { c with
      qxAt := c.rc s.now + 1,
      seq := { c.seq with next := some (if c.test x then nt else nf), last := c.rc s.now } }))

/-- The signals that reach an object in one die cycle are applied together (R267, R270): a RESET sets it to 0 first, then the
sum of the increments is added modulo 2^32, and every wrap is counted as event 0x2A. No other object changes, and nothing
else does. Premises: nothing has reached another object of the die's store, and nothing has changed the object earlier in the
die cycle; what arrived carries the group's current generation and a window admits it. -/
def Obligations.SyncApplyAddsWhatArrived : Prop :=
  ∀ (s : State) (d i t : Nat) (ms : List SyncMsg) (inc : SyncMsg → Nat),
    d < 4 → ms = s.syncMsgs.filter (fun m => m.die == d && m.index == i && decide (m.due ≤ s.now)) → ms ≠ [] →
    (∀ m, m ∈ s.syncMsgs → m.die = d → m.due ≤ s.now → m.index = i) → (s.obj d i).at_ ≠ s.now + 1 →
    (s.obj d i).val < 2 ^ 32 →
    (∀ m, m ∈ ms → m.due = t ∧ (m.op = .reset ∨ m.op = .inc (inc m)) ∧ (m.op = .reset → inc m = 0) ∧
      s.stale m.group m.gen = false ∧ s.admits 2 m.part m.src (objOff d i) 4 true = true) →
    ∃ (old : Nat) (s' : State), (old = if ms.any (fun m => m.op == .reset) then 0 else (s.obj d i).val) ∧
      exec (.syncApply d i) s = .next s' ∧ (s'.obj d i).val = (old + (ms.map inc).sum) % 2 ^ 32 ∧
      (∀ e j, syncKey e j ≠ syncKey d i → s'.obj e j = s.obj e j) ∧
      s' = { s with
        sync := s'.sync,
        syncMsgs := s.syncMsgs.filter (fun m => !(m.die == d && m.index == i && decide (m.due ≤ s.now))),
        evs := s.evs ++ (if (old + (ms.map inc).sum) / 2 ^ 32 = 0 then []
          else [⟨none, some d, ⟨0x2A, 0, (old + (ms.map inc).sum) / 2 ^ 32⟩⟩]) }

/-! ### The stream engine -/

/-- SX.GO reads its descriptor through port SX-R at P[PD][18:0] (R195, R196, R236) and, where the descriptor is no reserved
encoding, adds a transfer with its sides, its walk words and the bake's group, generation and partition, numbered in order;
its signal is noted where SIG is set. A reserved encoding adds nothing. No other core, no register and no memory changes. -/
def Obligations.SxGoStartsATransfer : Prop :=
  ∀ (s : State) (u : CoreId) (cmd : SxCmd) (key : Nat) (c : Core) (bs : List Byte) (w : Nat → Word) (src dst : Side),
    s.key u = some key → s.coreAt key = c → still c = true → c.sxAt ≠ c.rc s.now + 1 → nothingRead c (c.rc s.now) = true →
    c.ecc = [] → bs = (c.readFrom 10 ((c.p cmd.pd).setWidth 19).toNat 64).1 →
    (∀ i, w i = BitVec.ofNat 64 (natLE (slice bs (8 * i) 8))) →
    (∀ n, cmd.ovs = some n → src = .glob (c.p n)) →
    (cmd.ovs = none → src = if ctlSq (w 2) then .queue ((w 0).setWidth 6).toNat else .glob (w 0)) →
    (∀ n, cmd.ovd = some n → dst = .glob (c.p n)) →
    (cmd.ovd = none → dst = if ctlDq (w 2) then .queue ((w 1).setWidth 6).toNat else .glob (w 1)) →
    ∃ t, exec (.sxGo u cmd) s = .next t ∧ (∀ k, k ≠ key → t.coreAt k = s.coreAt k) ∧
      (t.coreAt key).mem = c.mem ∧ (t.coreAt key).regs = c.regs ∧ (t.coreAt key).sxAt = c.rc s.now + 1 ∧
      t = { s with cores := t.cores, evs := t.evs, sigs := t.sigs, xferSeq := t.xferSeq } ∧
      (descLegal (w 2) src dst = true → t.xferSeq = s.xferSeq + 1 ∧ (t.coreAt key).xfers = c.xfers ++ [{
        id := s.xferSeq, btag := c.seq.tag, c0 := c.rc s.now, src := src, dst := dst, ctl := w 2, dims := [w 3, w 4, w 5, w 6, w 7], elem := 0,
        within := 0, row := none, index := none, rest := [], emitted := 0, open_ := 0, done := false, group := c.seq.group,
        gen := c.seq.gen, part := c.part }]) ∧
      (descLegal (w 2) src dst = true → ctlSig (w 2) = false → t.sigs = s.sigs) ∧
      (descLegal (w 2) src dst = false → t.xferSeq = s.xferSeq ∧ (t.coreAt key).xfers = c.xfers ∧ t.sigs = s.sigs)

/-- The next operation of the oldest transfer is emitted once in a running cycle (R241): where its elements are there and it
needs no tag or one is free (R256), one operation is numbered, and only the issuing core changes among the cores. One
between addresses of the own scratchpad, under no index stream, reads its bytes through SX-R at once and waits, with no tag,
for running cycle s + X (R243). Without its elements the core stalls (R216); without a tag, though it needs one, it stalls
too, but in forerunner mode waits without a stall (R258). -/
def Obligations.SxOperationsAreEmitted : Prop :=
  ∀ (s : State) (u : CoreId) (key : Nat) (c : Core) (x : Xfer) (p : Plan),
    s.key u = some key → s.coreAt key = c → still c = true → c.emAt ≠ c.rc s.now + 1 → nothingRead c (c.rc s.now) = true →
    s.emitter key (c.rc s.now) = some x → p = x.plan (x.index.getD 0) →
    (c.needsMet (s.emitNeeds key x) = false → (s.emitTag key u x = false ∨ c.heldTag.isSome = true) →
      exec (.sxOperationEmit u) s = .next (s.setCoreAt key { c with
        stall := some { queues := s.emitNeeds key x, sync := none, tag := false, emit := true, held := false,
                        since := s.tally, fresh := true } })) ∧
    (s.emitTag key u x = true → c.heldTag = none → s.tagFree u.die x.part = false →
      (c.forerunner = false → exec (.sxOperationEmit u) s = .next (s.setCoreAt key { c with
        stall := some { queues := s.emitNeeds key x, sync := none, tag := true, emit := true, held := false,
                        since := s.tally, fresh := true } })) ∧
      (c.forerunner = true → exec (.sxOperationEmit u) s = .next s)) ∧
    (c.needsMet (s.emitNeeds key x) = true → (∀ o, o ∈ s.ops → o.id ≠ s.opSeq) →
      (s.emitTag key u x = false ∨ c.heldTag.isSome = true ∨ s.tagFree u.die x.part = true) →
      ∃ t, exec (.sxOperationEmit u) s = .next t ∧ t.opSeq = s.opSeq + 1 ∧ (∀ k, k ≠ key → t.coreAt k = s.coreAt k) ∧
        (t.coreAt key).emAt = c.rc s.now + 1 ∧ (t.coreAt key).heldTag = none) ∧
    (∀ a b v w b1 b2 o1 o2, x.src = .glob a → x.dst = .glob b → ctlIdx x.ctl = 0 → ctlTc x.ctl = false → c.heldTag = none →
      s.placeAt (BitVec.ofInt 64 p.src) = .spad v b1 o1 → s.placeAt (BitVec.ofInt 64 p.dst) = .spad w b2 o2 → v = u → w = u →
      s.admits 1 x.part s.me o1 p.len false = true → c.ecc = [] → (∀ o, o ∈ s.ops → o.id ≠ s.opSeq) →
      ∃ t o, exec (.sxOperationEmit u) s = .next t ∧ t.ops = s.ops ++ [o] ∧ o.id = s.opSeq ∧ o.xfer = x.id ∧ o.len = p.len ∧
        o.data = (c.readFrom 10 b1 p.len).1 ∧ o.valid = true ∧ o.tag = none ∧ o.stage = .ready ∧ o.s = s.now ∧
        (c.forerunner = false → o.dueRc = some (c.rc s.now + s.tmax (ccOff u.die u.cluster u.cluster))) ∧
        t = { s with cores := t.cores, evs := t.evs, ops := t.ops, sigs := t.sigs, opSeq := s.opSeq + 1 } ∧
        (t.coreAt key).mem = c.mem)

/-- An operation whose data is in hand and whose running cycle has come writes it into the issuing core's scratchpad (R243): the
bytes from its address take the data where nothing else has been written in the cycle, no other byte changes but one written
earlier in the cycle by a port that R145 puts behind, no other core changes, and the operation is complete; one without a
tag is gone. The signal of a transfer whose time has come goes to its object of this module as a SIGNAL of its increment
(R271) and is forgotten; one that is not ready stays. Nothing else changes. -/
def Obligations.TransfersArriveAndSignal : Prop :=
  (∀ (s : State) (id : Nat) (o : SxOp) (c : Core) (a : Word) (b off : Nat),
    s.op id = some o → s.coreAt o.key = c → still c = true → o.stage = .ready → s.opDue o = true → o.bubble = false →
    nothingRead c (c.rc s.now) = true → o.dst = .glob a → s.placeAt a = .spad o.core b off →
    s.admits 1 o.part s.me off o.len true = true → o.data.length ≤ 256 →
    ∃ t, exec (.transferDataArrival id) s = .next t ∧ (∀ k, k ≠ o.key → t.coreAt k = s.coreAt k) ∧
      (∀ x, x < b ∨ b + o.data.length ≤ x → (∀ w, w ∈ c.wlog → ∀ z, z ∈ w.olds → z.1 ≠ x) →
        (t.coreAt o.key).mem.byte x = c.mem.byte x) ∧
      (c.wlog = [] → ∀ i v, o.data[i]? = some v → b + i < 0x60000 → (t.coreAt o.key).mem.byte (b + i) = v) ∧
      (t.coreAt o.key).regs = c.regs ∧
      (o.tag = none → t.ops = s.ops.filter (fun y => y.id != id)) ∧
      (o.tag ≠ none → t.ops = s.ops.map (fun y => if y.id = id then { o with stage := .complete } else y)) ∧
      t = { s with cores := t.cores, evs := t.evs, ops := t.ops, sigs := t.sigs, alts := t.alts }) ∧
  (∀ (s : State) (id : Nat) (g : XferSig), s.sig id = some g →
    (s.sigReady g = false → exec (.transferSignal id) s = .next s) ∧
    (s.sigReady g = true → g.ridden = false → s.answers (addrMod g.addr) = true → addrSpace g.addr = 2 →
      ∃ due, exec (.transferSignal id) s = .next { s with
          sigs := s.sigs.filter (fun h => h.id != g.id),
          syncMsgs := s.syncMsgs ++ [{
            due := due, die := (g.addr.extractLsb' 52 2).toNat, index := (g.addr.extractLsb' 2 15).toNat, op := .inc g.inc,
            part := g.part, src := s.me, unit := s.unitOf g.core, group := g.group, gen := g.gen }] } ∧
        (s.sigCase g ≠ .after → due = g.lastEff + 1) ∧
        (s.sigCase g = .after → due = if (g.addr.extractLsb' 52 2).toNat = g.core.die then s.now + 1
          else s.now + s.tmin (ddOff g.core.die (g.addr.extractLsb' 52 2).toNat))))

/-- TAG_GRANT gives the lowest free tag of the die to the first waiting core whose partition may have one (R256, R257), and
counts event 0x21; where none may, nothing changes. TAG_RETURN puts the tag of a completed operation back into its die's
pool and forgets the operation (R255); one that is not complete keeps it. EXT_U_ACCESS lets one more access of the core's
EXT-U buffer take place at the end of the die cycle (log 15). There the oldest access whose sub-banks the cycle has left free
(R143, R146) takes place: the host's write of at most 256 B stores its bytes at its address, below 0x6_0000, and changes no
other byte; the host's read hands out the bytes as they were before the cycle's writes (R142) and changes none; an access
that finds a sub-bank in use waits. -/
def Obligations.TagsAndExtUAccesses : Prop :=
  ((∀ (s : State) (d : Nat), d < 4 →
    ((s.tagWaiters d).find? (fun w => s.tagFree d w.2.2) = none → exec (.tagGrant d) s = .next s) ∧
    (∀ n key p, (s.tagWaiters d).find? (fun w => s.tagFree d w.2.2) = some (n, key, p) → clear (s.coreAt key) = true →
      ∃ i t, exec (.tagGrant d) s = .next t ∧ (∀ e, e ∈ s.pool d → e.1 ≠ i) ∧
        (∀ j, j < i → ∃ e, e ∈ s.pool d ∧ e.1 = j) ∧ t.pool d = s.pool d ++ [(i, p)] ∧
        (∀ k, k ≠ d → t.pool k = s.pool k) ∧ (∀ k, k ≠ key → t.coreAt k = s.coreAt k) ∧
        t.coreAt key = { s.coreAt key with heldTag := some i } ∧
        t = { s with cores := t.cores, tags := t.tags, evs := s.evs ++ [⟨none, some d, ⟨0x21, p, 1⟩⟩] })) ∧
  (∀ (s : State) (id : Nat) (o : SxOp), s.op id = some o →
    (o.stage ≠ .complete → exec (.tagReturn id) s = .next s) ∧
    (∀ i, o.stage = .complete → o.tag = some i → ∃ t, exec (.tagReturn id) s = .next t ∧
      t.pool o.core.die = (s.pool o.core.die).filter (fun e => e.1 != i) ∧ (∀ k, k ≠ o.core.die → t.pool k = s.pool k) ∧
      t = { s with tags := t.tags, ops := s.ops.filter (fun x => x.id != id) }))) ∧
  (∀ (s : State) (u : CoreId) (key : Nat), s.key u = some key → exec (.extUAccess u) s =
    .next (s.setCoreAt key { s.coreAt key with extGo := min ((s.coreAt key).extGo + 1) (s.coreAt key).extU.length })) ∧
  (∀ (s t : State) (key : Nat) (c : Core) (a : ExtAcc) (rest : List ExtAcc),
    s.coreAt key = c → clear c = true → c.ecc = [] → c.extU = a :: rest → c.extGo ≠ 0 → a.for_ = .host → a.len ≤ 256 →
    t = State.extAccesses key 1 s →
    (c.extFree a = false → t = s) ∧
    (∀ bs, a.write = some bs → bs.length = a.len → c.extFree a = true → OnlyCore s t key ∧
      (t.coreAt key).extU = rest ∧ (t.coreAt key).extGo = c.extGo - 1 ∧ (t.coreAt key).regs = c.regs ∧
      (∀ x, x < a.addr ∨ a.addr + bs.length ≤ x ∨ 0x60000 ≤ x → (t.coreAt key).mem.byte x = c.mem.byte x) ∧
      (∀ i v, bs[i]? = some v → a.addr + i < 0x60000 → (t.coreAt key).mem.byte (a.addr + i) = v)) ∧
    (a.write = none → c.extFree a = true → (∀ k, k ≠ key → t.coreAt k = s.coreAt k) ∧
      t.coreAt key = { c with extU := rest, extGo := c.extGo - 1, busy := (t.coreAt key).busy } ∧
      t = { s with cores := t.cores, hostOut := s.hostOut ++ [.data (
        (List.range a.len).map (fun i => if a.addr + i < 0x60000 then c.byteOld (a.addr + i) else 0))] }))

/-! ### Channels and combining units -/

/-- The element on a die that is due first arrives (R156): at a core whose queue end is bound as channel in to the sender it
joins the elements waiting there; elsewhere on the core it is dropped, and event 0x0C is counted; one that comes later than
its time is dropped, with a link fault of its group (R215). Nothing else changes. The
credits on a die that are due first come back (R157): to a queue end that is still bound as channel out to the giver, and to
no other. A combining unit takes a waiting value element of a source that still owes its slot one (R163): each lane that the
element carries is added, sign-extended, modulo 2^136, the other lanes stay, the source has given one more, and a credit
goes back to the sender two die cycles later. No other slot changes. A combining unit with one element to deliver to the
cores of DMASK, each with a credit left (R164), sends it to the queue end that W1 names of every one of them, spending a
credit of each; without a credit at some destination it keeps the element. -/
def Obligations.ChannelsAndCombiningUnits : Prop :=
  ((∀ (s : State) (die : Nat) (f : ChanFlight) (m d k l key : Nat) (c : Core),
    die < 4 → s.nextFlight die = some f → f.due = s.now → UnitForm.ofId f.dst = .core m d k l →
    s.key ⟨d, k, l⟩ = some key → s.coreAt key = c → (∀ g, g ∈ c.gutter → g.1 ≠ f.group) → s.stale f.group f.gen = false →
    (f.dstQ < 48 → c.qkind f.dstQ = 2 → c.qpeer f.dstQ = f.srcUnit → c.qpq f.dstQ = f.srcQ →
      exec (.channelElementArrival die) s =
        .next ({ s with flights := s.flights.erase f }.setCoreAt key (c.setChan f.dstQ (c.chanIn f.dstQ ++ [f.elem])))) ∧
    ((48 ≤ f.dstQ ∨ c.qkind f.dstQ ≠ 2 ∨ c.qpeer f.dstQ ≠ f.srcUnit ∨ c.qpq f.dstQ ≠ f.srcQ) →
      exec (.channelElementArrival die) s =
        .next { s with flights := s.flights.erase f, evs := s.evs ++ [coreNote key 0x0C 0 1] })) ∧
  (∀ (s : State) (die : Nat) (f : ChanFlight), die < 4 → s.nextFlight die = some f → f.due < s.now →
    ∃ parts, exec (.channelElementArrival die) s = .next { s with
        flights := s.flights.erase f,
        raised := s.raised ++ [{ cls := 2, unit := UnitForm.toId (.group f.group), parts := parts, capture := none }] } ∧
      (∀ p, p < 16 → (parts.testBit p = true ↔ ∃ b, b ∈ s.bakes ∧ b.1 = f.group ∧ b.2.2.1 = p))) ∧
  (∀ (s : State) (die : Nat) (r : CreditFlight) (m d k l key : Nat) (c : Core),
    die < 4 → s.nextCredit die = some r → r.due ≤ s.now → UnitForm.ofId r.unit = .core m d k l →
    s.key ⟨d, k, l⟩ = some key → s.coreAt key = c →
    (c.qkind r.q = 3 → c.qpeer r.q = r.from_ → c.qpq r.q = r.fromQ →
      exec (.creditReturn die) s =
        .next ({ s with credits := s.credits.erase r }.setCoreAt key (c.setWr r.q (c.qwr r.q + r.m)))) ∧
    ((c.qkind r.q ≠ 3 ∨ c.qpeer r.q ≠ r.from_ ∨ c.qpq r.q ≠ r.fromQ) →
      exec (.creditReturn die) s = .next { s with credits := s.credits.erase r }))) ∧
  ((∀ (s : State) (d k src : Nat) (e : SrcElem) (w0 : Word) (x : Slot),
    d < 4 → k < 12 → src < 28 → Tab.get zeroN s.takeAt (unitKey d k) ≠ s.now + 1 →
    s.buf d k src = [e] → (∀ j, j < 28 → j ≠ src → s.buf d k j = []) → e.slot < 64 →
    w0 = s.cmb d k e.slot 0 → x = s.slot d k e.slot → x.given.length = 28 → x.acc.length = (w0.extractLsb' 50 7).toNat →
    e.elem.valid = true → x.given.getD src 0 < cmbValues w0 →
    ∃ t, exec (.combiningTake d k) s = .next t ∧
      (∀ n, n < 64 → n ≠ e.slot → t.slot d k n = s.slot d k n) ∧ t.buf d k src = [] ∧
      (t.slot d k e.slot).given = x.given.set src (x.given.getD src 0 + 1) ∧
      (∀ i, i < x.acc.length → (t.slot d k e.slot).acc.getD i 0 =
        if x.given.getD src 0 * cmbLanes (w0.extractLsb' 60 3).toNat ≤ i ∧
            i < (x.given.getD src 0 + 1) * cmbLanes (w0.extractLsb' 60 3).toNat then
          (x.acc.getD i 0 + (elemLanes (w0.extractLsb' 60 3).toNat e.elem.bytes).getD
            (i - x.given.getD src 0 * cmbLanes (w0.extractLsb' 60 3).toNat) 0) % 2 ^ 136
        else x.acc.getD i 0) ∧
      (∃ cr, t.credits = s.credits ++ [cr] ∧ cr.due = s.now + 2 ∧ cr.die = d ∧ cr.q = e.srcQ ∧ cr.m = 1) ∧
      t = { s with slots := t.slots, srcBufs := t.srcBufs, credits := t.credits, takeAt := t.takeAt }) ∧
  (∀ (s : State) (d k n : Nat) (e : Elem) (w1 : Word) (x : Slot),
    d < 4 → k < 12 → n < 64 → Tab.get zeroN s.giveAt (unitKey d k) ≠ s.now + 1 →
    x = s.slot d k n → x.out = [e] → (∀ j, j < 64 → j ≠ n → (s.slot d k j).out = []) →
    w1 = s.cmb d k n 1 → w1.getLsbD 63 = false →
    ((∀ l, l < 16 → w1.getLsbD l = true → 0 < x.credits.getD l 0) →
      ∃ t, exec (.combiningDelivery d k) s = .next t ∧
        t.flights = s.flights ++ ((List.range 16).filter (fun l => w1.getLsbD l)).map (fun l => {
          due := s.now + s.tmax (ccOff d k k), die := d, srcUnit := UnitForm.toId (.cluster s.me d k), srcQ := n,
          dst := UnitForm.toId (.core s.me d k l), dstQ := (w1.extractLsb' 42 6).toNat, elem := e, group := x.group,
          gen := x.gen }) ∧
        t.slot d k n = { x with
          out := [], credits := x.credits.zipIdx.map (fun p => if p.2 < 16 ∧ w1.getLsbD p.2 = true then p.1 - 1 else p.1) } ∧
        (∀ j, j < 64 → j ≠ n → t.slot d k j = s.slot d k j) ∧
        t = { s with slots := t.slots, flights := t.flights, giveAt := t.giveAt }) ∧
    ((∃ l, l < 16 ∧ w1.getLsbD l = true ∧ x.credits.getD l 0 = 0) →
      exec (.combiningDelivery d k) s = .next { s with giveAt := Tab.set zeroN s.giveAt (unitKey d k) (s.now + 1) })))

/-! ### Memory -/

/-- The next slot of a stack that is ready and accepts writes, once it has begun and with no corrected line to write back (R246,
R249, R250, R254, R414): in a refresh slot the stack refreshes; in a slot of partition p, or of the pool, the head of that
queue, the access that has reached the controller first, is served: a write of the host stores its bytes in its line and changes no other, a read of
the host hands out the line's bytes; an idle slot serves nothing. The next slot is one further, and no other stack changes.
A stack of the normal regime that reports a temperature above ENTER switches at the first frame after it (R252), at the
tally that the model takes for it (log 33); with a switch pending the report only sets TEMP. -/
def Obligations.DramSlotsAndRegimes : Prop :=
  (∀ (s : State) (m n e q : Nat) (x : Dram),
    m < 8 → x = s.dramOf m → n = max x.slot (768 * s.tally) → n < 768 * (s.tally + 1) → s.memReady m = true → x.ecc = [] →
    s.slotBegun m = true → s.cad.stopped = false → x.backs = [] →
    e = s.slotEntry m (s.fld (memOff m 0x100) 63 63) n →
    (e / 64 % 4 = 3 → exec (.dramSlot m) s = .next (s.setDram m { x with slot := n + 1 })) ∧
    (e / 64 % 4 = 2 → exec (.dramSlot m) s = .next { s.setDram m { x with slot := n + 1, refreshes := x.refreshes + 1 } with
      evs := s.evs ++ [⟨none, some (m / 2), ⟨0x22, 34 + m % 2, 1⟩⟩] }) ∧
    ((e / 64 % 4 = 0 ∧ q = e % 16 ∨ e / 64 % 4 = 1 ∧ q = 16) → ∀ r rest,
      Tab.get (fun _ => []) x.queues q = r :: rest → (∀ y, y ∈ rest → r.ready ≤ y.ready) → r.ready ≤ s.now → r.for_ = .host →
      natBit s.boot.writable (m / 2 + 1) = true → ∃ t, exec (.dramSlot m) s = .next t ∧ (t.dramOf m).slot = n + 1 ∧
        Tab.get (fun _ => []) (t.dramOf m).queues q = rest ∧ (∀ j, j ≠ m → t.dramOf j = s.dramOf j) ∧
        (∀ bs, r.write = some bs →
          (∀ a, a < 64 * r.line + r.off ∨ 64 * r.line + r.off + bs.length ≤ a → (t.dramOf m).mem.byte a = x.mem.byte a) ∧
          (∀ i v, bs[i]? = some v → (t.dramOf m).mem.byte (64 * r.line + r.off + i) = v) ∧
          t = { s with dram := t.dram, evs := t.evs }) ∧
        (r.write = none → (t.dramOf m).mem = x.mem ∧
          t = { s with dram := t.dram, evs := t.evs,
                       hostOut := s.hostOut ++ [.data (x.mem.bytes (64 * r.line + r.off) r.len)] }))) ∧
  (∀ (s : State) (m temp : Nat), m < 8 → temp < 256 →
    ((s.dramOf m).hotAt = none → s.fld (memOff m 0x100) 63 63 = 0 →
      s.fld (memOff m 0x100) 55 48 ≤ s.fld (memOff m 0x100) 15 8 → s.fld (memOff m 0x100) 15 8 < temp →
      exec (.refreshRegimeSwitch m temp) s = .next ((s.setFld (memOff m 0x100) 55 48 temp).setDram m
        { s.dramOf m with hotAt := some (regimeTally s.tickTime, true), below := 0 })) ∧
    ((s.dramOf m).hotAt ≠ none →
      exec (.refreshRegimeSwitch m temp) s = .next (s.setFld (memOff m 0x100) 55 48 temp)))

/-- A pair of slot tables that keeps R248 is written whole and takes effect at the next frame that begins with a tally that is a
multiple of 4; a pair that breaks R248 changes no entry, and the module's event is raised. No other register and no other
stack changes. Bookings (R290): a binary with one that names no entry, an entry that another partition's scheduled entry
holds or a second booking of the binary claims for another partition, or a reserve port (R226, R303) for a scheduled entry
changes no table, and the module's event is raised. One booking that R290 lets stand writes its entry of the shadow table
and nothing else, but for the port roles that came with the binary. -/
def Obligations.SlotTablesLoadAndBookingsMerge : Prop :=
  (∀ (s : State) (m : Nat) (v0 v1 : List Byte), m < 8 →
    (slotsOk (v0.map (fun b => b.toNat)) (v1.map (fun b => b.toNat)) = true →
      ∃ t, exec (.slotTableLoad m v0 v1) s = .next t ∧ t = { s with regs := t.regs, dram := t.dram } ∧
        (∀ k b, v0[k]? = some b → t.reg (slotOff m 0 k) = b.setWidth 64) ∧
        (∀ k b, v1[k]? = some b → t.reg (slotOff m 1 k) = b.setWidth 64) ∧
        (∀ off, (∀ k, k < 2048 → off ≠ slotOff m 0 k) → t.reg off = s.reg off) ∧
        (t.dramOf m).swapAt = 768 * (s.tally / 4 * 4 + 4) ∧ (t.dramOf m).mem = (s.dramOf m).mem ∧
        (∀ j, j ≠ m → t.dramOf j = s.dramOf j)) ∧
    (slotsOk (v0.map (fun b => b.toNat)) (v1.map (fun b => b.toNat)) = false →
      exec (.slotTableLoad m v0 v1) s = .next s.mailEvent)) ∧
  (∀ (s s1 : State) (roles : Option Nat), s1 = { s with fab := { s.fab with roles := roles } } →
    (∀ l : List Booking, (∃ b, b ∈ l ∧ (24 ≤ b.port ∨ 512 ≤ b.slot ∨
        (fsKind (s.reg (fslotOff 1 b.port b.slot)) = 1 ∨ fsKind (s.reg (fslotOff 1 b.port b.slot)) = 2) ∧
          fsPart (s.reg (fslotOff 1 b.port b.slot)) ≠ b.part ∨
        (b.kind = 1 ∨ b.kind = 2) ∧ (b.port ∈ s1.reservePorts ∨
          ∃ c, c ∈ l ∧ (c.kind = 1 ∨ c.kind = 2) ∧ c.port = b.port ∧ c.slot = b.slot ∧ c.part ≠ b.part))) →
      exec (.slotBookingMerge roles l) s = .next s1.mailEvent) ∧
    (∀ b : Booking, b.port < 24 → b.slot < 512 → b.kind < 4 → b.srcp < 32 → b.part < 16 →
      (fsKind (s.reg (fslotOff 1 b.port b.slot)) = 0 ∨ fsPart (s.reg (fslotOff 1 b.port b.slot)) = b.part) →
      fsKind (s.reg (fslotOff 1 b.port b.slot)) ≠ 3 → b.port ∉ s1.reservePorts →
      (∀ r, (r = b.port ∨ ∃ e, e ∈ s.regs ∧ 0x426000 ≤ e.1 ∧ e.1 < 0x42C000 ∧ (e.1 - 0x426000) / 0x400 = r) →
        ∀ i, i < 8 → ∃ j, j < 64 ∧ fsKind (s.reg (fslotOff 1 r (64 * i + j))) = 3) →
      exec (.slotBookingMerge roles [b]) s = .next (s1.setReg (fslotOff 1 b.port b.slot)
        (BitVec.ofNat 64 (b.kind * 2 ^ 14 + b.srcp * 2 ^ 9 + b.part)))))

/-! ### The fabric -/

/-- A codeword on an ACTIVE port (R281, R282, R294), of a physical lane that carries logical lane l, the lane's next: decoded
with k symbols corrected and with the right SEQ word it joins the lanes of its codeword, k is counted as event 0x25, and no
fault is raised; an uncorrectable one, or a wrong SEQ word, sets FAULT and raises a link fault where the port is not out of
use. A port in IDENT takes module and port of the neighbour from a TRAIN word (R293; its places are the model's choice, log
63); any other port that is not ACTIVE drops it. -/
def Obligations.CodewordsAreReceived : Prop :=
  ∀ (s : State) (p lane l c : Nat) (syms : List (BitVec 10)) (old : RxWord), p < 24 → lane < 9 →
    (s.portUp p = false → (s.mayTrain p = false ∨ s.portState p ≠ 4) → exec (.codewordReceive p lane syms) s = .next s) ∧
    (s.mayTrain p = true → s.portState p = 4 → ∀ msg k,
      rsDecode (padTo 0 544 (syms.map (fun x => x.toNat))) = some (msg, k) → ofSyms msg % 2 ^ 20 / 2 ^ 18 = 1 →
      exec (.codewordReceive p lane syms) s = .next ((s.setFld (fpOff p 1) 59 54 (ofSyms msg % 2 ^ 6)).setFld (fpOff p 1) 53 49
        (ofSyms msg / 2 ^ 6 % 2 ^ 5))) ∧
    (s.portUp p = true → c = max (Tab.get zeroN s.fab.laneC (9 * p + lane)) (ceilDiv (40 * s.tally - s.ll) 20) →
      (List.range 8).find? (fun i => s.rxLmap p (20 * c + s.ll) / 2 ^ (4 * i) % 16 == lane) = some l →
      old.c = c → Tab.get (fun _ => none) s.fab.rxWord p = some old → old.lanes.length < 7 →
      (Tab.get zeroN s.fab.lanes p = 0 ∨ natBit (Tab.get zeroN s.fab.lanes p) lane = true) →
      (∀ e, e ∈ old.lanes → e.1 ≠ l) →
      (∀ msg k, rsDecode (padTo 0 544 (syms.map (fun x => x.toNat))) = some (msg, k) → ofSyms msg % 2 ^ 20 = c % 2 ^ 18 →
        ∃ t bs, exec (.codewordReceive p lane syms) s = .next t ∧
          Tab.get (fun _ => none) t.fab.rxWord p = some { c := c, lanes := old.lanes ++ [(l, bs)], lost := old.lost } ∧
          Tab.get zeroN t.fab.laneC (9 * p + lane) = c + 1 ∧
          t = { s with
            fab := { s.fab with laneC := t.fab.laneC, rxWord := t.fab.rxWord },
            evs := s.evs ++ (if k = 0 then [] else [⟨none, some (p / 6), ⟨0x25, p % 6, k⟩⟩]) }) ∧
      ((rsDecode (padTo 0 544 (syms.map (fun x => x.toNat))) = none ∨
          ∃ msg k, rsDecode (padTo 0 544 (syms.map (fun x => x.toNat))) = some (msg, k) ∧ ofSyms msg % 2 ^ 20 ≠ c % 2 ^ 18) →
        s.dropsAt p (20 * c + s.ll) = false → ∃ t, exec (.codewordReceive p lane syms) s = .next t ∧ t.fld (fpOff p 1) 60 60 = 1 ∧ p ∈ t.fab.dead ∧
          t.raised = s.raised ++
            [{ cls := 2, unit := UnitForm.toId (.module s.me), parts := nor (s.linkParts p) 0, capture := none }]))

/-- The next slot of an ACTIVE port, if one is left in the tick (R287): a slot with a THRU entry sends the flit that is bound to
it, one hop further and otherwise unchanged but for the credits it carries; a slot for which nothing waits sends an idle
flit, and so does a port in training (R293). The next slot is one further; any other port sends nothing. The oldest flit at a port whose route goes on
(R288, R292): an unscheduled one waits to be sent 40 slots later or after; a scheduled one is bound to the THRU entry of
that slot that names its port and partition, and where there is none, or the slot is past, a link fault of its group is
raised and event 0x27 counted. -/
def Obligations.FlitsAreSentAndForwarded : Prop :=
  (∀ (s : State) (r n : Nat), r < 24 → n = max (Tab.get zeroN s.fab.next r) (40 * s.tally) →
    (s.portUp (s.phys r) = false ∧ (s.mayTrain (s.phys r) = false ∨ 5 < s.portState (s.phys r)) ∨ 40 * (s.tally + 1) ≤ n →
      exec (.flitSlotSend r) s = .next s) ∧
    (s.mayTrain (s.phys r) = true → s.portState (s.phys r) ≤ 5 → n < 40 * (s.tally + 1) →
      ∃ t, exec (.flitSlotSend r) s = .next t ∧ Tab.get zeroN t.fab.next r = n + 1 ∧ t.fab.fw = s.fab.fw ∧
        t.fab.sent = s.fab.sent ∧ t = { s with fab := t.fab }) ∧
    (s.portUp (s.phys r) = true → n < 40 * (s.tally + 1) →
      (∀ i w, s.cad.stopped = false → fsKind (s.fslotAt r n) = 2 → s.pickThru r n = some i → s.fab.fw[i]? = some w →
        ∃ t f, exec (.flitSlotSend r) s = .next t ∧ Tab.get zeroN t.fab.next r = n + 1 ∧ t.fab.fw = s.fab.fw.eraseIdx i ∧
          t.fab.sent = s.fab.sent ++ [⟨r, s.phys r, n, f⟩] ∧ f = { w.flit with hop := w.flit.hop + 1, cred := f.cred } ∧
          t = { s with fab := t.fab, evs := t.evs }) ∧
      (fsKind (s.fslotAt r n) = 0 ∨ fsKind (s.fslotAt r n) = 3 → s.pickFree r n = none →
        ∃ t, exec (.flitSlotSend r) s = .next t ∧ Tab.get zeroN t.fab.next r = n + 1 ∧ t.fab.fw = s.fab.fw ∧
          t.fab.sent = s.fab.sent ∧ t = { s with fab := t.fab, evs := t.evs }))) ∧
  (∀ (s s1 : State) (q : Nat) (x : RxFlit), q < 24 → s.rxHead q false = some x → s.tooOld x.flit = false →
    s1 = { s with fab := { s.fab with
      rx := Tab.set (fun _ => []) s.fab.rx q ((Tab.get (fun _ => []) s.fab.rx q).erase x) } } →
    (x.flit.cls = 1 → exec (.flitForward q) s =
      .next { s1 with fab := { s1.fab with fw := s.fab.fw ++ [⟨q, none, x.slot + 40, x.flit⟩] } }) ∧
    (x.flit.cls ≠ 1 →
      (∀ r, (bundlePorts s.topo x.flit.code).1.find? (fun r =>
          fsKind (s.fslotAt r (x.slot + 40)) == 2 && fsSrcp (s.fslotAt r (x.slot + 40)) == q &&
            fsPart (s.fslotAt r (x.slot + 40)) == x.flit.part &&
            decide (max (Tab.get zeroN s.fab.next r) (40 * s.tally) ≤ x.slot + 40)) = some r →
        exec (.flitForward q) s =
          .next { s1 with fab := { s1.fab with fw := s.fab.fw ++ [⟨q, some r, x.slot + 40, x.flit⟩] } }) ∧
      ((∀ r, r ∈ (bundlePorts s.topo x.flit.code).1 →
          fsKind (s.fslotAt r (x.slot + 40)) ≠ 2 ∨ fsSrcp (s.fslotAt r (x.slot + 40)) ≠ q ∨
            fsPart (s.fslotAt r (x.slot + 40)) ≠ x.flit.part ∨ x.slot + 40 < max (Tab.get zeroN s.fab.next r) (40 * s.tally)) →
        s.stale x.flit.group x.flit.gen = false →
        exec (.flitForward q) s = .next { s1 with
          evs := s.evs ++ [⟨none, some (s.phys q / 6), ⟨0x27, s.phys q % 6, 1⟩⟩],
          raised := s.raised ++ [{ cls := 2, unit := UnitForm.toId (.group x.flit.group), parts := 2 ^ x.flit.part,
                                   capture := none }] })))

/-- A scheduled flit whose route ends at a port takes effect once its die cycle has come (R300): one of a generation that is no
longer its group's goes into the gutter, which counts it (R386); a direct signal reaches its store in time (R268); a SYS or
abort flit goes to firmware, which acknowledges a message and forgets its own that an acknowledgement names (R299). Nothing else changes but the port's queue. FLIT_AGE_DROP (R387) takes every unscheduled flit
past its age limit from where it waits, leaves every other in its place and order, and counts each in HUB.GUTCNT. -/
def Obligations.FlitsAreEjectedOrDropped : Prop :=
  (∀ (s s1 : State) (q : Nat) (x : RxFlit), q < 24 → s.rxHead q true = some x → s.ejectDue q = true → x.flit.cls = 0 →
    s.fab.ctlIn = [] → s1 = { s with fab := { s.fab with
      rx := Tab.set (fun _ => []) s.fab.rx q ((Tab.get (fun _ => []) s.fab.rx q).erase x) } } →
    (x.flit.grouped = true → x.flit.srcu ≠ 1023 → s.stale x.flit.group x.flit.gen = true →
      ∃ t, exec (.flitEject q) s = .next t ∧ t.reg 0x120 = s.reg 0x120 + 1 ∧
        (∀ off, off ≠ 0x120 → off ≠ 0x128 → t.reg off = s.reg off) ∧
        (s.fld 0x128 63 63 = 1 → t.reg 0x128 = s.reg 0x128) ∧
        t = { s1 with regs := t.regs, evs := s.evs ++ [⟨none, none, ⟨0x32, 0, 1⟩⟩] }) ∧
    (x.flit.type = 4 → s.stale x.flit.group x.flit.gen = false → x.flit.space = 2 →
      (s.ejectAt q x - (x.flit.sent : Int)) % 16777216 ≤ s.tmax (mmOff x.flit.srcmod s.me) →
      exec (.flitEject q) s = .next { s1 with
        syncMsgs := s.syncMsgs ++ [{
          due := s.now, die := x.flit.off / 2 ^ 52 % 4, index := x.flit.off / 4 % 2 ^ 15,
          op := if x.flit.srk = 3 then .reset else .inc (x.flit.sref * 2 ^ 15 + x.flit.sinc), part := x.flit.part,
          src := x.flit.srcmod, unit := x.flit.unit, group := x.flit.group, gen := x.flit.gen }] }) ∧
    (6 ≤ x.flit.type → (s.ejectAt q x - (x.flit.sent : Int)) % 16777216 ≤ s.tmax (mmOff x.flit.srcmod s.me) →
      (x.flit.body = [] → exec (.flitEject q) s =
        .next { s1 with fab := { s1.fab with sysIn := s.fab.sysIn ++ [x.flit] } }) ∧
      (x.flit.body ≠ [] → x.flit.body.take 1 ≠ [6#8] → x.flit.body.take 1 ≠ [8#8] → exec (.flitEject q) s =
        .next (({ s1 with fab := { s1.fab with sysIn := s.fab.sysIn ++ [x.flit] } } : State).sendFlits none
          [{ emptyFlit with type := 7, srcmod := s.me, dstmod := x.flit.srcmod, sent := s.cycle % 2 ^ 24, len := 2,
                            body := [6#8, BitVec.ofNat 8 x.flit.tag, BitVec.ofNat 8 (x.flit.tag / 256)] }])) ∧
      (x.flit.type = 7 → x.flit.body.take 1 = [6#8] → exec (.flitEject q) s =
        .next { s1 with fab := { s1.fab with sysOut := s.fab.sysOut.filter (fun m =>
          !(m.2.dstmod == x.flit.srcmod && m.2.tag == natLE ((x.flit.body.drop 1).take 2))) } }))) ∧
  (∀ (s : State), Tab.wf (fun _ => []) s.fab.rx = true →
    ∃ t, exec .flitAgeDrop s = .next t ∧ t.tx = s.tx.filter (fun x => !s.tooOld x.flit) ∧
      t.fab.fw = s.fab.fw.filter (fun x => !s.tooOld x.flit) ∧
      (∀ q, Tab.get (fun _ => []) t.fab.rx q = (Tab.get (fun _ => []) s.fab.rx q).filter (fun x => !s.tooOld x.flit)) ∧
      t.reg 0x120 = s.reg 0x120 + BitVec.ofNat 64 (
        (s.tx.filter (fun x => s.tooOld x.flit)).length + (s.fab.fw.filter (fun x => s.tooOld x.flit)).length +
          (s.fab.rx.map (fun e => (e.2.filter (fun x => s.tooOld x.flit)).length)).sum) ∧
      (∀ off, off ≠ 0x120 → off ≠ 0x128 → t.reg off = s.reg off) ∧
      t = { s with tx := t.tx, regs := t.regs, evs := t.evs,
                   fab := { s.fab with fw := t.fab.fw, rx := t.fab.rx, owed := t.fab.owed } })

/-- ACK_FLIT_SEND (R284): fewer than 56 acknowledgements owed to a module, none of them older than 32 die cycles, wait; else
those of the first one's partition, group and generation leave, up to 56, in one flit of four bytes for each, and are owed
no longer. TOKEN_REFILL (R285, R298): at the start of a frame of slots every partition's bucket gains RATE tokens, up to
DEPTH; no other field of its register, no other register and nothing else changes but the number of the frame that comes
next. In a tick in which no further frame begins it does nothing. -/
def Obligations.AcknowledgementsAndTokens : Prop :=
  (∀ (s : State) (j : Nat) (a : Ack) (rest : List Ack), j < 64 → s.fab.acks.filter (fun x => x.mod_ == j) = a :: rest →
    (rest.length + 1 < 56 → s.now < a.at_ + 32 → exec (.ackFlitSend j) s = .next s) ∧
    (56 ≤ rest.length + 1 ∨ a.at_ + 32 ≤ s.now → rest.length < 56 →
      (∀ b, b ∈ rest → b.part = a.part ∧ b.group = a.group ∧ b.gen = a.gen) →
      ∃ f, exec (.ackFlitSend j) s =
          .next (({ s with fab := { s.fab with acks := s.fab.acks.filter (fun x => x.mod_ != j) } } : State).sendFlits
            (some (a.entry / 2 ^ 15)) [f]) ∧
        f.type = 5 ∧ f.srcmod = s.me ∧ f.dstmod = j ∧ f.part = a.part ∧ f.group = a.group ∧ f.gen = a.gen ∧
        f.len + 1 = 4 * (rest.length + 1) ∧ f.body = ((a :: rest).map (fun e => bytesLE e.entry 4)).flatten)) ∧
  (∀ (s : State), 40 * (s.tally + 1) ≤ 512 * s.nextFslotFrame → exec .tokenRefill s = .next s) ∧
  (∀ (s : State), 512 * s.nextFslotFrame < 40 * (s.tally + 1) → s.frameBegun = true →
    ∃ t, exec .tokenRefill s = .next t ∧ t = { s with regs := t.regs, fab := { s.fab with frame := s.nextFslotFrame + 1 } } ∧
    (∀ p, p < 16 → t.fld (0x412C80 + 8 * p) 15 0 =
        min (s.fld (0x412C80 + 8 * p) 15 0 + s.fld (0x412C00 + 8 * p) 13 0) (s.fld (0x412C00 + 8 * p) 47 32) ∧
      t.fld (0x412C80 + 8 * p) 63 16 = s.fld (0x412C80 + 8 * p) 63 16) ∧
    (∀ off, (∀ p, p < 16 → off ≠ 0x412C80 + 8 * p) → t.reg off = s.reg off))

/-- A step of a port's training (R293): a port with EN = 1 of a module that is not solo (R302), whose die's outputs are released
(R414) and with cadence lock (R419), goes from OFF to DETECT on a signal, to LOCK on a signal of eight
lanes, to ALIGN when eight lanes have locked, to IDENT when they are aligned, to MEASURE when the neighbour, its port and
the topology are the expected ones, and to ACTIVE when the latency fits, or to FAILED where the step's work fails; any other
port stays. RETRAIN puts a port into OFF (R305). No other port's STATE changes. A link fault on an ACTIVE port (R294)
sets its FAULT bit, makes it drop what it receives and raises a fault of class 2 against the partitions of R306, those that
this module's registers name and those that the other end and the other modules add (log 66); on any other port it does
nothing. -/
def Obligations.PortsTrainAndFail : Prop :=
  (∀ (s : State) (p : Nat), p < 24 →
    (∀ ev, s.portEn p = false ∨ s.topo = 0 ∨ natBit s.boot.outputs (p / 6 + 1) = false ∨ s.fld 0x430010 60 60 = 0 →
      exec (.portTraining p ev) s = .next s) ∧
    (∀ ev st, s.portEn p = true → s.topo ≠ 0 → natBit s.boot.outputs (p / 6 + 1) = true → s.fld 0x430010 60 60 = 1 →
      ((∃ l, ev = .signal l ∧ s.portState p = 0 ∧ popCount l 9 ≠ 0 ∧ st = 1) ∨
        (∃ l, ev = .signal l ∧ s.portState p = 1 ∧ 8 ≤ popCount l 9 ∧ st = 2) ∨
        (∃ l, ev = .locked l ∧ s.portState p = 2 ∧ st = if 8 ≤ popCount l 9 then 3 else 7) ∨
        (∃ ok, ev = .aligned ok ∧ s.portState p = 3 ∧ st = if ok = true then 4 else 7) ∨
        (∃ nm np tp, ev = .ident nm np tp ∧ s.portState p = 4 ∧
          st = if expected s.topo s.me p = some (nm, np) ∧ tp = s.topo then 5 else 7) ∨
        (∃ lat, ev = .measured lat ∧ s.portState p = 5 ∧ st = if lat + 16 ≤ 8 * s.ll then 6 else 7)) →
      ∃ t, exec (.portTraining p ev) s = .next t ∧ t.portState p = st ∧
        (∀ q, q < 24 → q ≠ p → t.portState q = s.portState q)) ∧
    (∃ t, exec (.retrain p) s = .next t ∧ t.portState p = 0 ∧ (∀ q, q < 24 → q ≠ p → t.portState q = s.portState q))) ∧
  (∀ (s : State) (p far : Nat) (why : LinkFaultWhy), p < 24 →
    (s.portUp p = false → exec (.linkFault p why far) s = .next s) ∧
    (s.portUp p = true → ∃ t, exec (.linkFault p why far) s = .next t ∧ t.reg (fpOff p 1) = s.reg (fpOff p 1) ||| (1#64 <<< 60) ∧
      (∀ off, off ≠ fpOff p 1 → t.reg off = s.reg off) ∧ p ∈ t.fab.dead ∧
      t = { s with
        regs := t.regs, fab := { s.fab with dead := t.fab.dead },
        raised := s.raised ++
          [{ cls := 2, unit := UnitForm.toId (.module s.me), parts := nor (s.linkParts p) (far % 2 ^ 16), capture := none }] }))

/-- A fabric commit (R291): arming sets ARMED where AT lies ahead and ERR where it has passed. An armed commit whose AT has come
makes the shadow slot tables, port maps, lane maps, alternates and SALT the active ones together and is no longer armed;
before that nothing happens. -/
def Obligations.FabricCommits : Prop :=
  ∀ (s : State),
    (s.tally < (s.reg 0x410010).toNat → exec .fabricCommitArm s = .next (s.setFld 0x410018 63 63 1)) ∧
    ((s.reg 0x410010).toNat ≤ s.tally → ∃ t, exec .fabricCommitArm s = .next t ∧ t.fld 0x410018 62 62 = 1 ∧
      t.fld 0x410018 63 63 = 0 ∧ t = { s with regs := t.regs } ∧ (∀ off, off ≠ 0x410018 → t.reg off = s.reg off)) ∧
    (s.fld 0x410018 63 63 = 0 ∨ s.tally < (s.reg 0x410010).toNat → exec .fabricCommit s = .next s) ∧
    (s.fld 0x410018 63 63 = 1 → (s.reg 0x410010).toNat ≤ s.tally → ∃ t, exec .fabricCommit s = .next t ∧
      t.fld 0x410018 63 63 = 0 ∧
      (∀ r k, r < 24 → k < 512 → t.reg (fslotOff 0 r k) = s.reg (fslotOff 1 r k) ∧
        t.reg (fslotOff 1 r k) = s.reg (fslotOff 1 r k)) ∧
      (∀ r, r < 24 → t.phys r = s.fld (0x411400 + 8 * r) 4 0 ∧ t.fld (fpOff r 1) 31 0 = s.fld (fpOff r 0) 31 0 ∧
        t.fld (fpOff r 1) 63 32 = s.fld (fpOff r 1) 63 32) ∧
      (∀ j, j < 64 → t.reg (0x412010 + 0x20 * j) = s.reg (0x412000 + 0x20 * j) ∧
        t.reg (0x412018 + 0x20 * j) = s.reg (0x412008 + 0x20 * j) ∧
        t.fld (0x412800 + 8 * j) 9 8 = s.fld (0x412800 + 8 * j) 1 0) ∧
      t.fab.oldTill = 40 * (s.reg 0x410010).toNat + s.ll ∧
      t = { s with regs := t.regs, rcnt := t.rcnt, fab := { s.fab with
        dead := t.fab.dead, heal := t.fab.heal, oldTill := t.fab.oldTill, oldPmap := t.fab.oldPmap, oldLmap := t.fab.oldLmap } })

/-! ### The tally, the walk and the Ridge -/

/-- A tick ends and the next begins (R313, R316, R322): the tally is one higher, or 0 where the walk's start pulse has come, DCY
has grown by the tick's die cycles unless a new one applies, and no die cycle of the new tick has passed. No command leaves
the queue. Premises: no new level of RESET_N waits at its filter (R339), and no mailbox request waits for MC0 (R421). -/
def Obligations.TallyTickAdvancesTheTally : Prop :=
  ∀ (s : State) (e : Edge), (∀ x, x ∈ s.cad.inputs → x.1 ≠ 0) → s.boot.mail = none → ∃ t, exec (.tallyTick e) s = .next t ∧
    t.tally = (if s.cad.walkIn = some 1 then 0 else s.tally + 1) ∧ t.left + 1 = t.tickLen ∧ s.now < t.now ∧
    (s.cad.dcyNext = none → t.tally ≠ 16384 → t.dcy = s.dcy + s.tickLen) ∧ t.pending = s.pending

/-- The start pulse of the walk (R322), and its slots (R323, R324): the pulse locks CADENCE and sets the tally's origin 64 ticks
ahead, once, and module 0, its RIDGE outputs released, drives it on both lines of both ports; slot m sets PRES and GB from the bits of its first sub-slot, and the duplicate bit where a sub-slot holds two
lines; the empty slot 63 ends a walk that found every module once, and aligns the module. -/
def Obligations.TheWalkFindsTheModules : Prop :=
  ∀ (s : State),
    (s.cad.walked = true ∨ s.topoSolo = true → exec .walkStart s = .next s) ∧
    (∀ drive, drive = (if s.fld 0x400010 5 0 = 0 ∧ natBit s.boot.outputs 7 = true then 3 else 0) →
      s.cad.walked = false → s.topoSolo = false → exec .walkStart s = .next { s.setFld 0x400010 63 63 1 with
        cad := { s.cad with walked := true, walkIn := some 65, ridgeA := drive, ridgeB := drive } }) ∧
    (∀ m subs, m < 64 → s.cad.walked = false ∨ s.fld 0x400010 61 61 = 1 → exec (.walkSlot m subs) s = .next s) ∧
    (∀ m subs, m < 63 → s.cad.walked = true → s.fld 0x400010 61 61 ≠ 1 → ∃ t, exec (.walkSlot m subs) s = .next t ∧
      t = { s with regs := t.regs } ∧
      t.reg 0x400040 = s.reg 0x400040 ||| (if (subs.getD 0 0).getLsbD 0 then 1#64 <<< m else 0) ∧
      t.reg 0x400048 = s.reg 0x400048 ||| (if (subs.getD 0 0).getLsbD 0 && (subs.getD 0 0).getLsbD 1 then 1#64 <<< m else 0) ∧
      t.reg 0x400050 = s.reg 0x400050 |||
        (if ((subs.drop 1).take 32).any (fun x => x.getLsbD 2 && x.getLsbD 3) then 1#64 <<< m else 0) ∧
      (∀ off, off ≠ 0x400040 → off ≠ 0x400048 → off ≠ 0x400050 → t.reg off = s.reg off)) ∧
    (s.cad.walked = true → s.fld 0x400010 61 61 ≠ 1 → (s.reg 0x400040).toNat = 2 ^ s.nmod - 1 → s.reg 0x400050 = 0 →
      (s.reg 0x400048 = 0 ∨ (s.reg 0x400048).toNat = 2 ^ s.nmod - 1) → s.fld 0x400010 5 0 < s.nmod →
      ∃ t, exec (.walkSlot 63 (List.replicate 33 0)) s = .next t ∧ t.fld 0x400010 61 61 = 1 ∧ t.fld 0x400010 62 62 = 1 ∧
        (s.fld 0x400010 5 0 = 0 → t.fld 0x400010 60 60 = 1) ∧
        (∀ r, r < 53 → t.fld (regionOff r) 63 56 = s.voteCeil))

/-- CADENCE_LOSS (R311, R419): LOSS is set, LOCK and ALIGNED are cleared and the ready bits of cadence lock and of the dies
fall; a solo module needs no CADENCE. The third frame without a marker, and the second with a wrong one, loses CADENCE in
the same way on an aligned module, and makes one that regains alignment read its tally again (R326, R338). The marker check
of a module that follows the Ridge (R326): a frame without a marker counts as absent and clears the count of mismatches; the
right marker clears both counts; a wrong one sets SLIP and counts. The timekeeper and a solo module check nothing. The
alternate timekeeper (position 1, or 32 of 64 modules) takes over after
two frames without a marker (R321); nobody else does. A module that has regained CADENCE takes the frame number from phase 1
of 14 frames (R338): nibble (f + j) mod 14 of each frame number f + j gives the tally of frame f + 13 back, the low byte as
the markers have shown it, where the holdover tally is right about f modulo 14. An aligned module, or a solo one, takes
none. -/
def Obligations.CadenceIsLostAndRegained : Prop :=
  ((∀ (s : State), (s.topoSolo = true → exec .cadenceLoss s = .next s) ∧
    (s.topoSolo = false → ∃ t, exec .cadenceLoss s = .next t ∧ t.fld 0x400010 57 57 = 1 ∧ t.fld 0x400010 63 63 = 0 ∧
      t.fld 0x400010 62 62 = 0 ∧ t.fld 0x430010 60 60 = 0 ∧ (∀ d, d < 4 → t.fld 0x430010 (49 + d) (49 + d) = 0) ∧
      t.tally = s.tally ∧ t.pending = s.pending)) ∧
  (∀ (s : State) (p1 : BitVec 4), s.fld 0x400010 60 60 ≠ 1 → s.fld 0x400010 62 62 = 1 → s.topoSolo = false →
    s.cad.absent = 2 → exec (.ridgeMarkerCheck 0 p1) s =
      exec .cadenceLoss { s with cad := { s.cad with absent := 3, mism := 0 } }) ∧
  (∀ (s : State) (p1 : BitVec 4), s.fld 0x400010 60 60 ≠ 1 → s.fld 0x400010 62 62 ≠ 1 → s.topoSolo = false →
    s.cad.absent = 2 → exec (.ridgeMarkerCheck 0 p1) s =
      .next { s with cad := { s.cad with tallied := false, absent := 0, mism := 0 } }) ∧
  (∀ (s : State) (p0 p1 : BitVec 4), s.fld 0x400010 60 60 ≠ 1 → s.fld 0x400010 62 62 ≠ 1 → s.topoSolo = false →
    p0 ≠ 0 → ¬ (p0 = 5 ∧ p1.toNat = s.tally / 256 / 16 ^ (s.tally / 256 % 14) % 16) → s.cad.mism = 1 →
    exec (.ridgeMarkerCheck p0 p1) s =
      .next { s.setFld 0x400010 56 56 1 with cad := { s.cad with tallied := false, absent := 0, mism := 0 } }) ∧
  (∀ (s : State) (p0 p1 : BitVec 4), s.fld 0x400010 60 60 ≠ 1 → s.fld 0x400010 62 62 = 1 → s.topoSolo = false →
    p0 ≠ 0 → ¬ (p0 = 5 ∧ p1.toNat = s.tally / 256 / 16 ^ (s.tally / 256 % 14) % 16) → s.cad.mism = 1 →
    exec (.ridgeMarkerCheck p0 p1) s =
      exec .cadenceLoss { s.setFld 0x400010 56 56 1 with cad := { s.cad with absent := 0, mism := 2 } })) ∧
  (∀ (s : State) (p0 p1 : BitVec 4),
    (s.fld 0x400010 60 60 = 1 ∨ s.topoSolo = true → exec (.ridgeMarkerCheck p0 p1) s = .next s) ∧
    (s.fld 0x400010 60 60 ≠ 1 → s.topoSolo = false →
      (p0 = 0 → s.cad.absent < 2 → exec (.ridgeMarkerCheck p0 p1) s =
        .next { s with cad := { s.cad with absent := s.cad.absent + 1, mism := 0 } }) ∧
      (p0 = 5 → p1.toNat = s.tally / 256 / 16 ^ (s.tally / 256 % 14) % 16 → exec (.ridgeMarkerCheck p0 p1) s =
        .next { s with cad := { s.cad with absent := 0, mism := 0 } }) ∧
      (p0 ≠ 0 → ¬ (p0 = 5 ∧ p1.toNat = s.tally / 256 / 16 ^ (s.tally / 256 % 14) % 16) → s.cad.mism = 0 →
        exec (.ridgeMarkerCheck p0 p1) s =
          .next { s.setFld 0x400010 56 56 1 with cad := { s.cad with absent := 0, mism := 1 } }))) ∧
  (∀ (s : State),
    (s.fld 0x400010 5 0 = (if s.nmod = 64 then 32 else 1) → 2 ≤ s.cad.absent → s.fld 0x400010 62 62 = 1 →
      ∃ t, exec .timekeeperTakeover s = .next t ∧ t.fld 0x400010 60 60 = 1 ∧
        t.fld 0x400010 59 59 = (if s.nmod = 64 then 1 else 0) ∧ (∀ off, off ≠ 0x400010 → t.reg off = s.reg off) ∧
        t = { s with regs := t.regs, cad := { s.cad with absent := 0 } }) ∧
    (s.fld 0x400010 5 0 ≠ (if s.nmod = 64 then 32 else 1) ∨ s.cad.absent < 2 ∨ s.fld 0x400010 62 62 ≠ 1 →
      exec .timekeeperTakeover s = .next s)) ∧
  (∀ (s : State),
    (∀ shift phase1, s.fld 0x400010 62 62 = 1 ∨ s.topoSolo = true → exec (.alignmentRegain shift phase1) s = .next s) ∧
    (∀ shift low f s1, f + 14 ≤ 2 ^ 56 → s.fld 0x400010 62 62 ≠ 1 → s.topoSolo = false →
      low = (s.tally + 256 - shift % 256) % 256 → ((s.tally - low + 128) / 256 - 13) % 14 = f % 14 →
      s1 = (if s.cad.walked then s.setFld 0x400010 63 63 1 else (s.setFld 0x400010 63 63 1).setFld 0x400010 61 61 1) →
      exec (.alignmentRegain shift ((List.range 14).map (fun j => BitVec.ofNat 4 ((f + j) / 16 ^ ((f + j) % 14))))) s =
        .next { s1 with
          tally := 256 * (f + 13) + low, cad := { s.cad with absent := 0, mism := 0, tallied := true, walked := true } }))

/-- Copies of an abort, from the Ridge (R327) or by flit (R382): the running bakes of the named partitions whose delivery tally
lies before the first edge of phase 2 of the abort frame stop. The first Ridge abort is captured with its frame; phases
without a line do nothing. A solo module reads nothing on the Ridge (R312). Ridge barriers (R328): after phases 10-17 each of the 32 barriers whose arrival is in, whose
frame has come and which no module pulls low any longer is done, with the frame noted; every other one stays. The host flags
are those of phases 26 and 27 (R329). -/
def Obligations.TheRidgeAbortsAndMeets : Prop :=
  (∀ (s : State) (phases : List (BitVec 4)) (p q : BitVec 4), s.topoSolo = true →
    exec (.ridgeAbort phases) s = .next s ∧ exec (.ridgeBarrier phases) s = .next s ∧
      exec (.ridgeHostFlags p q) s = .next s ∧ exec (.ridgeDepthSample p q) s = .next s) ∧
  ((∀ (s : State) (phases : List (BitVec 4)) (parts cls : Nat), s.topoSolo = false → parts = nibbleSum (phases.take 4) →
    cls = nibbleSum ((phases.drop 4).take 2) →
    (parts = 0 → cls = 0 → exec (.ridgeAbort phases) s = .next s) ∧
    (parts ≠ 0 ∨ cls ≠ 0 → ∃ t, exec (.ridgeAbort phases) s = .next t ∧ t.tally = s.tally ∧
      BakesStopped s t parts (some (256 * (s.tally / 256) + 16)) ∧
      (s.fld 0x400068 63 63 = 0 → t.reg 0x400068 = BitVec.ofNat 64 (2 ^ 63 + s.tally / 256) ∧
        t.reg 0x400070 = BitVec.ofNat 64 (parts * 2 ^ 8 + cls)) ∧
      (s.fld 0x400068 63 63 = 1 → t.reg 0x400068 = s.reg 0x400068 ∧ t.reg 0x400070 = s.reg 0x400070))) ∧
  (∀ (s : State) (tf frame cls dmod parts : Nat), tf < 2 ^ 64 → frame < 2 ^ 64 → cls < 256 → dmod < 64 → parts < 2 ^ 16 →
    ∃ t, exec (.abortFlit (abortBody tf frame cls dmod parts)) s = .next t ∧ t.tally = s.tally ∧
      BakesStopped s t parts (some (256 * frame + 16)))) ∧
  (∀ (s : State), s.topoSolo = false →
    (∀ phases : List (BitVec 4), ∃ t, exec (.ridgeBarrier phases) s = .next t ∧ t = { s with regs := t.regs } ∧
      (∀ off, (∀ b, b < 32 → off ≠ 0x400100 + 8 * b) → t.reg off = s.reg off) ∧
      (∀ b, b < 32 → t.reg (0x400100 + 8 * b) =
        if (s.reg (0x400100 + 8 * b)).getLsbD 63 ∧ (s.reg (0x400100 + 8 * b)).getLsbD 62 ∧
            ((s.reg (0x400100 + 8 * b)).setWidth 56).toNat ≤ s.tally / 256 ∧ natBit (nibbleSum phases) b = false then
          setFld (setFld (setFld (s.reg (0x400100 + 8 * b)) 63 63 0) 61 61 1) 55 0 (s.tally / 256)
        else s.reg (0x400100 + 8 * b))) ∧
    (∀ p26 p27 : BitVec 4,
      exec (.ridgeHostFlags p26 p27) s = .next (s.setFld 0x400060 15 8 (p27 ++ p26 : BitVec 8).toNat)))

/-! ### Frequency, depth, heat and power -/

/-- The end of a frame (R330, R333): every region's vote falls to max(floor, N - 8) on a droop fault, by DOWN below the lower of
its vote and N on a warning of droop, heat or aging, and rises by UP after enough clean frames, and is at most the ceiling;
it records what it reported, and the module's vote is the lowest of them all and of the cap controller's, which a solo
module takes as the result two frames later (R331). The arbitration's
result (R331): both Ridge ports show the same six lines, 72 less which is the frequency that applies two frames later;
different lines, or a value above 40, are a mismatch. FREQUENCY_CHANGE makes the latest result whose edge has come the
current one (R332). Depth (R337): more than one line in phases 24 and 25 is a mismatch. Arming a commit refuses a reserved
code or a tally that is no multiple of 768, is late where the tally has come, and otherwise holds the code for its tally;
DEPTH_COMMIT makes it the current one then, and not before. -/
def Obligations.FrequencyAndDepth : Prop :=
  (∀ (s : State) (rs : List RegionReport), ∃ t, exec (.regionVoteUpdate rs) s = .next t ∧ t.cad.droop = [] ∧
    t.fld 0x400020 47 40 = ((List.range 53).map (fun r => t.fld (regionOff r) 63 56)).foldl min (s.fld 0x400080 7 0) ∧
    (∀ r x, r < 53 → x = rs.getD r ⟨0, 0, 100⟩ → x.tj < 256 → x.dmax < 256 → x.agem < 256 →
      t.fld (regionOff r) 55 48 = x.tj ∧ t.fld (regionOff r) 47 40 = x.dmax ∧ t.fld (regionOff r) 39 32 = x.agem ∧
      t.fld (regionOff r) 28 0 = s.fld (regionOff r) 28 0 ∧
      (r ∈ s.cad.droop → t.fld (regionOff r) 63 56 = min s.voteCeil (max s.voteFloor (s.ncur - 8))) ∧
      (r ∉ s.cad.droop → s.fld 0x400028 47 40 < x.dmax ∨ s.fld 0x400028 63 56 ≤ x.tj ∨ x.agem < s.fld 0x400028 31 24 →
        t.fld (regionOff r) 63 56 = max s.voteFloor (min (s.fld (regionOff r) 63 56) s.ncur - s.fld 0x400020 23 20)) ∧
      (r ∉ s.cad.droop → x.dmax ≤ s.fld 0x400028 47 40 → x.tj < s.fld 0x400028 63 56 → s.fld 0x400028 31 24 ≤ x.agem →
        t.fld (regionOff r) 63 56 =
          if s.fld 0x400020 15 0 ≤ Tab.get zeroN s.cad.clean r + 1 then
            min s.voteCeil (s.fld (regionOff r) 63 56 + s.fld 0x400020 19 16)
          else min s.voteCeil (s.fld (regionOff r) 63 56))) ∧
    (s.topoSolo = true → 16384 ≤ s.tally → t.fld 0x400020 55 48 = t.fld 0x400020 47 40 ∧
      t.cad.freqs = s.cad.freqs ++ [(256 * (s.tally / 256 + 2), t.fld 0x400020 47 40)])) ∧
  (∀ (s : State),
    (∀ r0 r1, s.topoSolo = true ∨ s.fld 0x400010 62 62 ≠ 1 → exec (.frequencyArbitration r0 r1) s = .next s) ∧
    (∀ r0 r1, s.topoSolo = false → s.fld 0x400010 62 62 = 1 →
      (r0.take 6 = r1.take 6 → bitsMsb (r0.take 6) ≤ 40 → exec (.frequencyArbitration r0 r1) s =
        .next { s.setFld 0x400020 55 48 (72 - bitsMsb (r0.take 6)) with cad := { s.cad with
          freqs := s.cad.freqs ++ [(256 * (s.tally / 256 + 2), 72 - bitsMsb (r0.take 6))] } }) ∧
      (r0.take 6 ≠ r1.take 6 ∨ 40 < bitsMsb (r0.take 6) → exec (.frequencyArbitration r0 r1) s =
        .next { s.setFld 0x400010 54 54 1 with evs := s.evs ++ [⟨none, none, ⟨0x3A, 1, 1⟩⟩] })) ∧
    ((∀ f, f ∈ s.cad.freqs → s.tally < f.1) → exec .frequencyChange s = .next s) ∧
    (∀ f, (s.cad.freqs.filter (fun f => decide (f.1 ≤ s.tally))).getLast? = some f → ∃ t, exec .frequencyChange s = .next t ∧
      t.reg 0x400020 = setFld (s.reg 0x400020) 63 56 f.2 ∧ (∀ off, off ≠ 0x400020 → t.reg off = s.reg off) ∧
      t.cad = { s.cad with freqs := s.cad.freqs.filter (fun f => decide (s.tally < f.1)), lower := t.cad.lower } ∧
      t = { s with regs := t.regs, cad := t.cad, evs := t.evs, tickLen := t.tickLen, left := t.left, ticks := t.ticks })) ∧
  (∀ (s : State), s.topoSolo = false →
    (∀ p24 p25 : BitVec 4, exec (.ridgeDepthSample p24 p25) s = .next (
      if 1 < popCount p24.toNat 4 + popCount p25.toNat 1 then
        { s.setFld 0x400010 53 53 1 with evs := s.evs ++ [⟨none, none, ⟨0x3A, 2, 1⟩⟩] } else s)) ∧
    (5 ≤ s.fld 0x400030 60 58 ∨ ¬ 768 ∣ (s.reg 0x400038).toNat →
      exec .depthCommitArm s = .next (s.setFld 0x400030 55 55 1)) ∧
    (s.fld 0x400030 60 58 < 5 → 768 ∣ (s.reg 0x400038).toNat → s.tally < (s.reg 0x400038).toNat →
      exec .depthCommitArm s = .next { s.setFld 0x400030 57 57 1 with
        cad := { s.cad with depth := some (s.fld 0x400030 60 58, (s.reg 0x400038).toNat) } }) ∧
    (s.fld 0x400030 60 58 < 5 → 768 ∣ (s.reg 0x400038).toNat → (s.reg 0x400038).toNat ≤ s.tally →
      ∃ t, exec .depthCommitArm s = .next t ∧ t.fld 0x400030 56 56 = 1 ∧ t.fld 0x400030 57 57 = 0 ∧ t.cad.depth = none) ∧
    (∀ k at_, s.cad.depth = some (k, at_) → (s.tally < at_ → exec .depthCommit s = .next s) ∧
      (at_ ≤ s.tally → k < 5 → ∃ t, exec .depthCommit s = .next t ∧ t.depthNow = k ∧ t.fld 0x400030 57 57 = 0 ∧
        t.cad.depth = none ∧ (∀ off, off ≠ 0x400030 → t.reg off = s.reg off) ∧
        t = { s with regs := t.regs, cad := t.cad, tickLen := t.tickLen, left := t.left, ticks := t.ticks })))

/-- A droop fault of a region (R333) sets its bit and counts for the region's next vote; a thermal trip (R334) sets the region's
bit, asserts THERMTRIP_N, stops the compute dies' clocks and clears their ready bits. There are 53 regions, and a report of
another has no effect (log 60). CAD.DCY is
written while ALIGNED = 0 and takes effect with the next frame (R316); a write of CAD.PCAP takes effect at the next frame's
end or, outside its limits, is ignored whole (R458). The cap controller at the end of a frame (R458), no write waiting: it
notes input power, voltage, PWRBRK_N and the peak of power; while the mean over AVG frames exceeds the cap, its vote falls
below the lower of itself and N, to no less than its floor, and HIT is set; the module's vote follows. -/
def Obligations.DroopHeatAndPower : Prop :=
  (∀ (s : State) (r : Nat),
    (r < 53 → ∃ t, exec (.droopFault r) s = .next t ∧ t.fld (regionOff r) 28 28 = 1 ∧ t.cad.droop = s.cad.droop ++ [r] ∧
      t.tally = s.tally ∧ t.pending = s.pending) ∧
    (r < 53 → ∃ t, exec (.thermalTrip r) s = .next t ∧ t.fld (regionOff r) 27 27 = 1 ∧ t.thermTrip = true ∧
      t.cad.stopped = true ∧ (∀ d, d < 4 → t.fld 0x430010 (49 + d) (49 + d) = 0) ∧ t.tally = s.tally ∧
      t.pending = s.pending) ∧
    (53 ≤ r → exec (.droopFault r) s = .next s ∧ exec (.thermalTrip r) s = .next s)) ∧
  (∀ (s : State) (v : BitVec 64),
    (s.fld 0x400010 62 62 = 1 → exec (.dcyWrite v) s = .next s) ∧
    (s.fld 0x400010 62 62 ≠ 1 → exec (.dcyWrite v) s = .next { s with cad := { s.cad with dcyNext := some v.toNat } }) ∧
    (pcapBad v = true → exec (.powerCapWrite v) s = .next s) ∧
    (pcapBad v = false → exec (.powerCapWrite v) s = .next { s with cad := { s.cad with pcapNext := some v } }) ∧
    (pcapBad v = true ↔ ¬ (1200 ≤ (v.extractLsb' 52 12).toNat ∧ (v.extractLsb' 52 12).toNat ≤ 2400 ∧
      1200 ≤ (v.extractLsb' 40 12).toNat ∧ (v.extractLsb' 40 12).toNat ≤ 2400 ∧ 32 ≤ (v.extractLsb' 32 8).toNat ∧
      (v.extractLsb' 32 8).toNat ≤ 72 ∧ (v.extractLsb' 16 8).toNat ≠ 0 ∧ (v.extractLsb' 8 8).toNat ≠ 0))) ∧
  (∀ (s : State) (pin vin : Nat), s.cad.pcapNext = none → pin < 2 ^ 16 → vin < 2 ^ 16 →
    ∃ t, exec (.powerCapUpdate pin vin false) s = .next t ∧ t.fld 0x400088 63 48 = pin ∧ t.fld 0x400088 47 32 = vin ∧
      t.fld 0x400088 31 16 = max (s.fld 0x400088 31 16) pin ∧ t.fld 0x400088 14 14 = 0 ∧
      t.cad.pins = (pin :: s.cad.pins).take 255 ∧
      (s.fld 0x400080 63 52 * ((pin :: s.cad.pins).take 255 |>.take (s.fld 0x400080 23 16)).length <
          ((pin :: s.cad.pins).take 255 |>.take (s.fld 0x400080 23 16)).sum → s.fld 0x400080 63 52 = 2400 →
        t.fld 0x400088 15 15 = 1 ∧
          t.fld 0x400080 7 0 = max s.voteFloor (min (s.fld 0x400080 7 0) s.ncur - 1) % 256) ∧
      t.fld 0x400020 47 40 = ((List.range 53).map (fun r => s.fld (regionOff r) 63 56)).foldl min (t.fld 0x400080 7 0) ∧
      (∀ off, off ≠ 0x400080 → off ≠ 0x400088 → off ≠ 0x400020 → t.reg off = s.reg off) ∧
      t = { s with regs := t.regs, cad := t.cad })

/-! ### Faults and recovery -/

/-- HEARTBEAT (R378) sends a SYS message to every torus neighbour that a route reaches, unless MC1 has failed, and sends again the
messages that have gone unacknowledged for a frame (log 18); nothing else changes. A neighbour whose heartbeats have stopped
is lost: the bakes of every partition with a group that reaches it are aborted, with class bit 6 on the Ridge; the loss of any
other module is not heard here. A detected link or watchdog fault without a capture aborts every bake of the partitions that
the detector names and goes on the Ridge with its class bit (R377, R382); no memory changes. A memory fault that names no
partition is recorded only (R36, R380). A repeated check (R379) that fails again marks the captured fault hard, and its unit
waits for repair; one that passes is repaired by the reload of its persistent region (R393), unless the fault is hard; where no
fault is captured nothing happens. -/
def Obligations.HeartbeatsAndFaults : Prop :=
  ((∀ s : State, ∃ (t : State) (sent : List TxFlit), exec .heartbeat s = .next t ∧
      t = { s with tx := s.tx ++ sent, rot := t.rot,
                   fab := { s.fab with sysOut := s.fab.sysOut.map (fun m => if m.1 + 256 ≤ s.tally then (s.tally, m.2) else m) } } ∧
      (∀ x, x ∈ sent → x.sent = s.now ∧
        (s.fld 0x430210 61 59 ≠ 4 ∧ x.flit.type = 7 ∧ x.flit.body = [] ∧ x.flit.srcmod = s.me ∧ x.flit.dstmod ∈ s.neighbours ∨
          ∃ m, m ∈ s.fab.sysOut ∧ m.1 + 256 ≤ s.tally ∧ x.flit.dstmod = m.2.dstmod ∧ x.flit.tag = m.2.tag ∧
            x.flit.body = m.2.body)) ∧
      (∀ m, m ∈ s.neighbours → s.fld 0x430210 61 59 ≠ 4 → s.nextAlt m ≠ none →
        ∃ x, x ∈ sent ∧ x.flit.type = 7 ∧ x.flit.body = [] ∧ x.flit.dstmod = m) ∧
      (∀ m, m ∈ s.fab.sysOut → m.1 + 256 ≤ s.tally → m.2.cls ≠ 0 → s.nextAlt m.2.dstmod ≠ none →
        ∃ x, x ∈ sent ∧ x.flit.dstmod = m.2.dstmod ∧ x.flit.tag = m.2.tag ∧ x.flit.body = m.2.body)) ∧
  (∀ (s : State) (j : Nat),
    (64 ≤ j → exec (.heartbeatLoss j) s = .next s) ∧
    (j < 64 → j ∉ s.neighbours → exec (.heartbeatLoss j) s = .next s) ∧
    (j < 64 → j ∈ s.neighbours → ∃ t, exec (.heartbeatLoss j) s = .next t ∧
      t.cad = { s.cad with aborts := s.cad.aborts ++
        [{ frame := s.abortFrame (s.groupParts j), parts := s.groupParts j, cls := 2 ^ 6 }] } ∧
      BakesStopped s t (s.groupParts j) none ∧ t.tally = s.tally ∧ t.dram = s.dram ∧ t.pending = s.pending))) ∧
  ((∀ (s : State) (f : FaultEvent), f.cls = 2 ∨ f.cls = 3 → f.capture = none →
    ∃ t, exec (.faultDetect f) s = .next t ∧
      t.cad = { s.cad with aborts := s.cad.aborts ++
        [{ frame := s.abortFrame f.parts, parts := f.parts, cls := if f.cls = 2 then 2 else 4 }] } ∧
      BakesStopped s t f.parts none ∧ (∀ key, (t.coreAt key).mem = (s.coreAt key).mem) ∧ t.dram = s.dram ∧
      t.tally = s.tally ∧ t.pending = s.pending) ∧
  (∀ (s : State) (f : FaultEvent), f.cls = 1 → f.capture = none → f.parts = 0 →
    exec (.faultDetect f) s =
      .next (s.faultRecord [BitVec.ofNat 64 s.tally, flogW1 1 false false 0 0 s.me f.unit, 0, 0, 0])) ∧
  (∀ (s : State) (d k : Nat) (again : Bool) (load : List Reload),
    (4 ≤ d ∨ 12 ≤ k → exec (.faultRecheck d k again load) s = .next s) ∧
    (d < 4 → k < 12 → (s.fld (errOff d k) 63 63 ≠ 1 ∨ again = false ∧ s.fld (errOff d k) 62 62 = 1) →
      exec (.faultRecheck d k again load) s = .next s) ∧
    (d < 4 → k < 12 → s.fld (errOff d k) 63 63 = 1 → s.fld (errOff d k) 62 62 ≠ 1 → again = false →
      exec (.faultRecheck d k again load) s =
        .next ((if s.fld (errOff d k) 57 53 < 17 then s.reload (physKey d k (s.fld (errOff d k) 57 53)) load else s).freeUnit
          (s.capturedUnit d k)) ∧
      (s.freeUnit (s.capturedUnit d k)).unfit = s.unfit.filter (fun v => v != s.capturedUnit d k)) ∧
    (d < 4 → k < 12 → s.fld (errOff d k) 63 63 = 1 → again = true → ∃ t, exec (.faultRecheck d k again load) s = .next t ∧
      t.fld (errOff d k) 62 62 = 1 ∧ s.capturedUnit d k ∈ t.unfit ∧ t.cores = s.cores ∧ t.dram = s.dram ∧ t.pending = s.pending ∧
      t = { signalled s t with regs := t.regs, aborts := t.aborts, unfit := t.unfit })))

/-- The watchdogs (R381): a core stalled for SYNCLIM ticks, and a bake that still runs PROGLIM ticks after its delivery tally,
are watchdog faults of their partition, detected as any; within the limit, and with a limit of 0, nothing happens.
GENERATION_CHANGE (R385) waits for TG; then GEN of the aborted group advances by one modulo 256 and its old operations are
gone. REPLAY (R389, R390) queues the recorded messages of an entry's aborted bakes again, in order, for the tick in
progress; an entry without aborted bakes queues nothing. It waits for MC1 (R421), for the repair of every unit that the group
reaches (R390, R393) and for a travel-time table that is not stale (R212), and after a droop fault until the lowered step has
taken effect (R396). -/
def Obligations.WatchdogsGenerationsAndReplay : Prop :=
  (∀ (s : State) (u : CoreId) (key p : Nat) (f : FaultEvent), s.key u = some key → p = (s.coreAt key).part →
    f = { cls := 3, unit := s.unitOf u, parts := 2 ^ p, capture := none } →
    ((s.coreAt key).stall = none → exec (.syncWatchdog u) s = .next s) ∧
    (∀ st, (s.coreAt key).stall = some st →
      (s.fld (0x1400 + 8 * p) 23 0 = 0 ∨ s.tally < st.since + s.fld (0x1400 + 8 * p) 23 0 →
        exec (.syncWatchdog u) s = .next s) ∧
      (0 < s.fld (0x1400 + 8 * p) 23 0 → st.since + s.fld (0x1400 + 8 * p) 23 0 ≤ s.tally →
        ∃ t, exec (.syncWatchdog u) s = .next t ∧ exec (.faultDetect f) s = .next t)) ∧
    ((s.coreAt key).seq.run = false ∨ s.fld (0x1400 + 8 * p) 63 40 = 0 ∨
        s.tally < (s.coreAt key).seq.tally + s.fld (0x1400 + 8 * p) 63 40 → exec (.progressWatchdog u) s = .next s) ∧
    ((s.coreAt key).seq.run = true → 0 < s.fld (0x1400 + 8 * p) 63 40 →
      (s.coreAt key).seq.tally + s.fld (0x1400 + 8 * p) 63 40 ≤ s.tally →
        ∃ t, exec (.progressWatchdog u) s = .next t ∧ exec (.faultDetect f) s = .next t)) ∧
  ((∀ s : State, (∀ a, a ∈ s.aborts → a.changed = true ∨ s.tally < a.tg) → exec .generationChange s = .next s) ∧
  (∀ (s : State) (a : AbortRec), s.aborts = [a] → a.changed = false → a.tg ≤ s.tally → a.group < 4096 →
    ∃ t, exec .generationChange s = .next t ∧ t.gdGen a.group = (a.gen + 1) % 256 ∧
      (∀ g, g < 4096 → g ≠ a.group → t.gdGen g = s.gdGen g) ∧
      t.ops = s.ops.filter (fun o => !(o.group == a.group && o.gen == a.gen)) ∧ t.tally = s.tally ∧ t.pending = s.pending) ∧
  (∀ (s : State) (e : Nat), 256 ≤ e → exec (.replay e) s = .next s) ∧
  (∀ (s : State) (e : Nat), e < 256 →
    (s.aborts.find? (fun a => a.changed && !a.stop && a.bakes.any (fun b => b.lte == some e)) = none →
      exec (.replay e) s = .next s) ∧
    (∀ a, s.aborts.find? (fun a => a.changed && !a.stop && a.bakes.any (fun b => b.lte == some e)) = some a →
      (s.fld 0x430210 61 59 = 1 ∨ s.fld 0x430210 61 59 = 3 ∨ s.fld 0x430210 61 59 = 4 ∨ s.launchHeld a.group = true ∨
          s.fld 0x200000 62 62 = 1 ∨ a.cls = 4 ∧ (s.cad.droop ≠ [] ∨ s.cad.lower ≠ none)) →
      exec (.replay e) s = .next s) ∧
    (∀ a rs, s.aborts.find? (fun a => a.changed && !a.stop && a.bakes.any (fun b => b.lte == some e)) = some a →
      s.fld 0x430210 61 59 ≠ 1 → s.fld 0x430210 61 59 ≠ 3 → s.fld 0x430210 61 59 ≠ 4 → s.launchHeld a.group = false →
      s.fld 0x200000 62 62 = 0 → (a.cls = 4 → s.cad.droop = [] ∧ s.cad.lower = none) →
      rs = (Tab.get (fun _ => []) s.launches e).filter
        (fun r => (a.bakes.filter (fun b => b.lte == some e)).any (fun b => b.seq == r.seq)) →
      ∃ t, exec (.replay e) s = .next t ∧
        (t.hubQ.map (fun q => (q.msg.tally, q.msg.body, q.due))) =
          s.hubQ.map (fun q => (q.msg.tally, q.msg.body, q.due)) ++
            (rs.map (fun r => (launchMsgs { r with tally := s.tally }).map (fun m =>
              (some s.tally, m, some (s.tickNow + 64))))).flatten ∧
        t = { s with hubQ := t.hubQ, launches := t.launches, gate := t.gate, aborts := t.aborts })))

/-- Repair. A substitution (R38) is ignored while PFAIL is above 15, while the failed core or the spare has a bake, and without
a good spare, and where MC1, which makes it, is loading, restarting or has failed (R421); else it sets SUBST and PFAIL alone
and restarts the counts of R391. One that puts the spare in a slot's place loads the spare's registers, and then its
instruction area and persistent region (R393), and the failed slot is waited for no more. A standby that is promoted answers
to the module it protects (R399). The loss of module j disables every port to it (R399); its admission enables them again, to be
trained (R431), and the admitted module, with cadence lock, sets its compute ready bits. -/
def Obligations.SparesStandbysAndNeighbours : Prop :=
  (∀ (s : State) (d k off : Nat) (v : BitVec 64) (w : Word) (pf spare : Nat) (regs : List (Nat × BitVec 64)) (load : List Reload)
      (down taken : Bool),
    off = clOff d k 0 → w = s.reg off → pf = (v.setWidth 5).toNat → spare = physKey d k 16 →
    down = [1, 3, 4].contains (s.fld 0x430210 61 59) →
    (taken = true ↔ pf < 16 ∧ (s.coreAt (physKey d k pf)).hasBake = false ∧
      (s.coreAt (physKey d k (w.setWidth 5).toNat)).hasBake = false ∧ (s.coreAt spare).hasBake = false ∧
      (v.getLsbD 23 = true → w.getLsbD 24 = true ∧ w.getLsbD (32 + pf) = false)) →
    (4 ≤ d ∨ 12 ≤ k ∨ down = true ∨ taken = false → exec (.spareSubstitution d k v regs load) s = .next s) ∧
    (d < 4 → k < 12 → down = false → taken = true →
      ∃ t, exec (.spareSubstitution d k v regs []) s = .next t ∧ t.fld off 4 0 = pf ∧ t.fld off 23 23 = (v.getLsbD 23).toNat ∧
        (∀ b, 5 ≤ b → b ≠ 23 → (t.reg off).getLsbD b = w.getLsbD b) ∧ (∀ o, o ≠ off → t.reg o = s.reg o) ∧
        (v.getLsbD 23 = false → t = { s with regs := t.regs, rcnt := [] }) ∧
        (v.getLsbD 23 = true → t = { s with regs := t.regs, rcnt := [], unfit := t.unfit, cores := t.cores } ∧
          t.coreAt spare = (s.coreAt spare).loadRegs regs ∧ (∀ key, key ≠ spare → t.coreAt key = s.coreAt key) ∧
          (∀ u, s.idOf (physKey d k pf) = some u → t.unfit = s.unfit.filter (fun x => x != s.unitOf u))) ∧
        exec (.spareSubstitution d k v regs load) s = .next (if v.getLsbD 23 then t.reload spare load else t))) ∧
  (∀ s : State, ∃ t, exec .standbyPromotion s = .next t ∧ t.rcnt = [] ∧ t.cores = s.cores ∧ t.pending = s.pending ∧
    (s.fld 0x130 63 62 = 2 → t.answers (s.fld 0x130 59 54) = true ∧ t.fld 0x130 59 54 = s.fld 0x130 59 54) ∧
    (s.fld 0x130 63 62 ≠ 2 → t.reg 0x130 = s.reg 0x130)) ∧
  (∀ (s : State) (j : Nat),
    (64 ≤ j → exec (.lossConfirmation j) s = .next s ∧ exec (.moduleAdmission j) s = .next s) ∧
    (j < 64 → ∃ t, exec (.lossConfirmation j) s = .next t ∧
      (∀ r, r ∈ s.portsTo j → s.phys r < 24 → t.portEn (s.phys r) = false ∧ t.portState (s.phys r) = 0) ∧
      (∀ p, p < 24 → (∀ r, r ∈ s.portsTo j → s.phys r ≠ p) → t.reg (fpOff p 0) = s.reg (fpOff p 0) ∧
        t.reg (fpOff p 1) = s.reg (fpOff p 1)) ∧
      t = { signalled s t with regs := t.regs }) ∧
    (j < 64 → s.answers j = false → ∃ t, exec (.moduleAdmission j) s = .next t ∧
      (∀ r, r ∈ s.portsTo j → s.phys r < 24 → t.portEn (s.phys r) = true ∧ t.portState (s.phys r) = 0) ∧
      (∀ p, p < 24 → (∀ r, r ∈ s.portsTo j → s.phys r ≠ p) → t.reg (fpOff p 0) = s.reg (fpOff p 0) ∧
        t.reg (fpOff p 1) = s.reg (fpOff p 1)) ∧
      t = { signalled s t with regs := t.regs }) ∧
    (j < 64 → s.answers j = true → s.topoSolo = false → s.fld 0x430010 60 60 = 0 → exec (.moduleAdmission j) s = .next s) ∧
    (j < 64 → s.answers j = true → (s.topoSolo = true ∨ s.fld 0x430010 60 60 = 1) → exec (.moduleAdmission j) s = .next s.updateDies ∧
      s.updateDies = { signalled s s.updateDies with regs := s.updateDies.regs } ∧
      (∀ d, d < 4 → natBit s.boot.released (d + 1) = true → s.fld 0x200000 63 62 = 2 → s.fld 0x430018 (12 * d + 11) (12 * d) ≠ 0 →
        s.boot.miss = 0 → s.updateDies.fld 0x430010 (49 + d) (49 + d) = 1)))

/-! ### Requests -/

/-- A doorbell (R352) sets TAIL of the ring; where that overruns an enabled ring of the active gateway the ring halts and vector
0 of the function is signalled. Ingest takes the next descriptor by class, credit and token (R353), reads it from its place in
the ring, and the input of an APPEND (R340, R349), and spends the token; at
a frame's start every partition's tokens grow by RATE up to BURST. No other register, and no memory, changes. The head
descriptor that has been acted on is accepted (R354), an APPEND once its record is mirrored (R363): HEAD advances and is mirrored,
the descriptor leaves, an APPEND joins the open batch
of its entry, and any other request queues its result; one with a reserved code or bit completes with BAD_OP. A retiring
record that no batch names becomes free with TGEN one further (R362). The oldest result of a partition is written to its
ring (R355, R356): its data, then the descriptor, and TAIL advances; a full or disabled ring takes none. A ring or record that does
not exist does nothing (log 60). -/
def Obligations.RingsFetchAcceptAndAnswer : Prop :=
  ((∀ (s : State) (p c : Nat) (pi : BitVec 32) (cfg : Word) (out : Nat), cfg = s.reg (rqOff p c 1) →
    out = (pi.toNat + 2 ^ 32 - s.fld (rqOff p c 2) 31 0) % 2 ^ 32 →
    (16 ≤ p ∨ 3 ≤ c → exec (.doorbell p c pi) s = .next s) ∧
    (p < 16 → c < 3 →
      (s.rings = false → exec (.doorbell p c pi) s = .next s) ∧
      (s.rings = true → (s.gwActive = false ∨ cfg.getLsbD 63 = false ∨ cfg.getLsbD 62 = true ∨ out ≤ 2 ^ (cfg.setWidth 5).toNat) →
        exec (.doorbell p c pi) s = .next (s.setFld (rqOff p c 2) 63 32 pi.toNat)) ∧
      (s.rings = true → s.gwActive = true → cfg.getLsbD 63 = true → cfg.getLsbD 62 = false → 2 ^ (cfg.setWidth 5).toNat < out →
        exec (.doorbell p c pi) s =
          .next (((s.setFld (rqOff p c 2) 63 32 pi.toNat).setFld (rqOff p c 1) 62 62 1).interrupt (some p) 0)))) ∧
  (∀ (s : State) (desc : ReqDesc) (input : List (BitVec 8)),
    (s.rings = false ∨ s.gwActive = false ∨ s.nextRing = none → exec (.ingestFetch desc input) s = .next s) ∧
    (∀ p c, s.rings = true → s.gwActive = true → s.nextRing = some (p, c) → ∃ t, exec (.ingestFetch desc input) s = .next t ∧
      p < 16 ∧ c < 3 ∧ s.mayFetch p c = true ∧ (∀ p' c', p' < 16 → c' < c → s.mayFetch p' c' = false) ∧
      t.hostOut = s.hostOut ++ [.read (some p) ((s.reg (rqOff p c 0)).toNat / 4096 * 4096 +
        64 * ((s.fld (rqOff p c 2) 31 0 + (s.fetchedOf p c).length) % 2 ^ s.fld (rqOff p c 1) 4 0)) 64] ++
        (if reqOp desc = 2 ∧ 0 < desc.inlen then [.read (some p) desc.inaddr.toNat desc.inlen] else []) ∧
      t.gate = { s.gate with fetched := s.gate.fetched ++ [⟨p, c, desc, input, none⟩], turn := s.gate.turn.set c ((p + 1) % 16) } ∧
      (c = 0 → t.regs = s.regs) ∧ (c ≠ 0 → t.fld (partOff p 1) 31 16 + 1 = s.fld (partOff p 1) 31 16) ∧
      (∀ off, off ≠ partOff p 1 → t.reg off = s.reg off) ∧
      t = { s with regs := t.regs, gate := t.gate, hostOut := t.hostOut })) ∧
  (∀ s : State, ∃ t, exec .ingestRefill s = .next t ∧ t = { s with regs := t.regs, evs := t.evs } ∧
    (∀ p, p < 16 →
      t.fld (partOff p 1) 31 16 = min (s.fld (partOff p 1) 31 16 + s.fld (partOff p 1) 15 0) (s.fld (partOff p 1) 63 48) ∧
      t.fld (partOff p 1) 63 32 = s.fld (partOff p 1) 63 32 ∧ t.fld (partOff p 1) 15 0 = s.fld (partOff p 1) 15 0) ∧
    (∀ off, (∀ p, p < 16 → off ≠ partOff p 1) → t.reg off = s.reg off))) ∧
  ((∀ (s : State) (p c : Nat), (16 ≤ p ∨ 3 ≤ c → exec (.requestAccept p c) s = .next s) ∧
    (p < 16 → c < 3 → (s.fetchedOf p c = [] ∨ s.gwActive = false → exec (.requestAccept p c) s = .next s)) ∧
    (∀ f rest, p < 16 → c < 3 → s.gwActive = true → s.fetchedOf p c = f :: rest →
      (f.done = none → reqBad f.desc = false → exec (.requestAccept p c) s = .next s) ∧
      (∀ st h, (f.done = some (st, h, false) ∨ f.done = none ∧ reqBad f.desc = true ∧ st = 2 ∧ h = f.desc.handle) →
        ∃ t, exec (.requestAccept p c) s = .next t ∧ t.fld (rqOff p c 2) 31 0 = (s.fld (rqOff p c 2) 31 0 + 1) % 2 ^ 32 ∧
          t.fld (rqOff p c 2) 63 32 = s.fld (rqOff p c 2) 63 32 ∧ (∀ off, off ≠ rqOff p c 2 → t.reg off = s.reg off) ∧
          t.gate = { s.gate with fetched := s.gate.fetched.erase f, results := s.gate.results ++ [plainResult f st h] } ∧
          (∀ m, s.mirrorTo = some m → ∃ x, x ∈ t.fab.sysOut ∧ x.2.dstmod = m ∧
            x.2.body = acceptBody f ((s.fld (rqOff p c 2) 31 0 + 1) % 2 ^ 32) st h false) ∧
          t = { told s t with regs := t.regs, gate := t.gate, evs := s.evs ++ [⟨none, none, ⟨0x36, p, 1⟩⟩] }) ∧
      (∀ st h, f.done = some (st, h, true) → s.unmirrored (h.extractLsb' 40 18).toNat = true →
        exec (.requestAccept p c) s = .next s) ∧
      (∀ st h, f.done = some (st, h, true) → s.unmirrored (h.extractLsb' 40 18).toNat = false → ∃ t a, exec (.requestAccept p c) s = .next t ∧
        t.fld (rqOff p c 2) 31 0 = (s.fld (rqOff p c 2) 31 0 + 1) % 2 ^ 32 ∧ t.gate.fetched = s.gate.fetched.erase f ∧
        t.gate.appends = s.gate.appends ++ [a] ∧ t.gate.accepted = s.gate.accepted + 1 ∧ a.part = p ∧ a.handle = h ∧
        a.reqid = f.desc.reqid ∧ a.resaddr = f.desc.resaddr ∧ a.order = s.gate.accepted ∧ a.input = f.input.take f.desc.inlen ∧
        a.deadline = (if f.desc.dlrel = 0 then 2 ^ 64 - 1 else (s.tally + f.desc.dlrel) % 2 ^ 64) ∧
        (∀ off, off ≠ rqOff p c 2 → t.reg off = s.reg off) ∧
        t = { told s t with regs := t.regs, gate := t.gate, evs := s.evs ++ [⟨none, none, ⟨0x36, p, 1⟩⟩] }))) ∧
  (∀ (s : State) (i p : Nat), (262144 ≤ i → exec (.recordRetire i) s = .next s) ∧
    (i < 262144 → p = ((s.stream i).ctl.extractLsb' 56 4).toNat →
      (((s.stream i).ctl.extractLsb' 60 3).toNat ≠ 4 ∨ (∃ a, a ∈ s.gate.appends ∧ a.idx = i) ∨
          (∃ f, f ∈ s.gate.frozen ∧ ∃ x, x ∈ f.slots ∧ x.2.idx = i) → exec (.recordRetire i) s = .next s) ∧
      (((s.stream i).ctl.extractLsb' 60 3).toNat = 4 → (∀ a, a ∈ s.gate.appends → a.idx ≠ i) →
        (∀ f, f ∈ s.gate.frozen → ∀ x, x ∈ f.slots → x.2.idx ≠ i) → ∃ t, exec (.recordRetire i) s = .next t ∧
          ((t.stream i).ctl.extractLsb' 60 3).toNat = 0 ∧
          ((t.stream i).ctl.setWidth 24).toNat = (((s.stream i).ctl.setWidth 24).toNat + 1) % 2 ^ 24 ∧
          (∀ j, j ≠ i → t.stream j = s.stream j) ∧ (∀ off, off ≠ 0x110 → off ≠ partOff p 4 → t.reg off = s.reg off) ∧
          (s.fld 0x110 62 42 ≠ 0 → t.fld 0x110 62 42 + 1 = s.fld 0x110 62 42) ∧
          t = { told s t with regs := t.regs, gate := t.gate }))) ∧
  (∀ (s : State) (p : Nat) (cfg : Word) (tail : Nat), cfg = s.reg (cqOff p 1) → tail = s.fld (cqOff p 2) 63 32 →
    (16 ≤ p → exec (.resultWrite p) s = .next s) ∧
    (p < 16 → (s.gate.results.find? (fun r => r.part == p) = none ∨ s.rings = false ∨ s.gwActive = false ∨ cfg.getLsbD 63 = false ∨
        (tail + 2 ^ 32 - s.fld (cqOff p 2) 31 0) % 2 ^ 32 = 2 ^ (cfg.setWidth 5).toNat) → exec (.resultWrite p) s = .next s) ∧
    (∀ r, p < 16 → s.gate.results.find? (fun r => r.part == p) = some r → s.rings = true → s.gwActive = true →
      cfg.getLsbD 63 = true → (tail + 2 ^ 32 - s.fld (cqOff p 2) 31 0) % 2 ^ 32 ≠ 2 ^ (cfg.setWidth 5).toNat →
      ∃ t sig, exec (.resultWrite p) s = .next t ∧ t.fld (cqOff p 2) 63 32 = (tail + 1) % 2 ^ 32 ∧
        t.fld (cqOff p 2) 31 0 = s.fld (cqOff p 2) 31 0 ∧ (∀ off, off ≠ cqOff p 2 → t.reg off = s.reg off) ∧
        t.hostOut = s.hostOut ++ r.writes.map (fun w => .write (some p) w.1 w.2) ++
          [.write (some p) ((s.reg (cqOff p 0)).toNat / 4096 * 4096 + 32 * (tail % 2 ^ (cfg.setWidth 5).toNat))
            (resultBytes r tail (cfg.setWidth 5).toNat)] ++ sig ∧
        (sig = [] ∨ sig = [.msix (some p) (cfg.extractLsb' 32 11).toNat]) ∧
        t.gate.results = s.gate.results.erase r ∧
        t = { told s t with regs := t.regs, gate := t.gate, hostOut := t.hostOut })))

/-- The oldest descriptor of a ring of the active gateway is acted on (R350, R351, R360, R362), its outcome noted beside it. NOP
changes nothing more. OPEN takes the lowest free record: V and state 1, PART, CLASS, TGEN and the key, and one record more
is occupied and one less is free. APPEND checks the handle, the class, whether one is pending and the position, and then
waits in its record, of which the mirror, if there is one, is told (R363). CLOSE retires the record, at once or after its pending APPEND; ROLL takes a new record and retires the
old one. -/
def Obligations.RequestsActOnRecords : Prop :=
  ∀ (s : State) (p c : Nat) (f : Fetched) (d : ReqDesc), p < 16 → c < 3 → s.gwActive = true → s.streamReady = true →
    s.gate.fetched.find? (fun f => f.part == p && f.ring == c && f.done.isNone) = some f → f.desc = d → reqBad d = false →
    (reqOp d = 0 → exec (.nop p c) s =
      .next { s with gate := { s.gate with fetched := markDone (0, d.handle, false) p c s.gate.fetched } }) ∧
    (reqOp d = 1 → ∀ cls home e i, cls = (d.opw.extractLsb' 58 2).toNat →
      home = (if d.opw.getLsbD 57 then (if cls = 0 then s.primaryGw else s.me) else (d.opw.extractLsb' 50 6).toNat) →
      e = (d.opw.extractLsb' 40 8).toNat → s.homeHere home = true →
      (s.mayOpen p = false → exec (.openS p c) s =
        .next { s with gate := { s.gate with fetched := markDone (5, d.handle, false) p c s.gate.fetched } }) ∧
      (s.mayOpen p = true → cls = 0 → home ≠ s.primaryGw → exec (.openS p c) s =
        .next { s with gate := { s.gate with fetched := markDone (6, d.handle, false) p c s.gate.fetched } }) ∧
      (s.mayOpen p = true → (cls ≠ 0 ∨ home = s.primaryGw) → s.freeRecord = some i → ∃ t, exec (.openS p c) s = .next t ∧
        (t.stream i).key = d.key ∧
        (t.stream i).ctl = BitVec.ofNat 64 (2 ^ 63 + 2 ^ 60 + p * 2 ^ 56 + cls * 2 ^ 54 + ((s.stream i).ctl.setWidth 24).toNat) ∧
        (t.stream i).slot = BitVec.ofNat 64 (e * 2 ^ 32 + s.freeSlot p e) ∧
        (∀ j, j ≠ i → t.stream j = s.stream j) ∧
        t.gate.fetched = markDone (0, handleOf home i ((s.stream i).ctl.setWidth 24).toNat, false) p c s.gate.fetched ∧
        t.fld 0x110 20 0 + 1 = s.fld 0x110 20 0 ∧ t.fld (partOff p 4) 20 0 = s.fld (partOff p 4) 20 0 + 1 ∧
        (∀ off, off ≠ 0x110 → off ≠ partOff p 4 → t.reg off = s.reg off) ∧ t.cores = s.cores ∧
        t = { told s t with regs := t.regs, gate := t.gate, dram := t.dram, raised := t.raised })) ∧
    (reqOp d = 2 → (s.named p d.handle = .bad → exec (.append p c) s =
        .next { s with gate := { s.gate with fetched := markDone (1, d.handle, false) p c s.gate.fetched } }) ∧
      (∀ i r, s.named p d.handle = .here i → r = s.stream i →
        ((r.ctl.extractLsb' 54 2).toNat ≠ c → exec (.append p c) s =
          .next { s with gate := { s.gate with fetched := markDone (2, d.handle, false) p c s.gate.fetched } }) ∧
        ((r.ctl.extractLsb' 54 2).toNat = c → s.appendOpen i d.handle = true → exec (.append p c) s =
          .next { s with gate := { s.gate with fetched := markDone (3, d.handle, false) p c s.gate.fetched } }) ∧
        ((r.ctl.extractLsb' 54 2).toNat = c → s.appendOpen i d.handle = false → r.ctl.getLsbD 48 = true → exec (.append p c) s =
          .next { s with gate := { s.gate with fetched := markDone (4, d.handle, false) p c s.gate.fetched } }) ∧
        ((r.ctl.extractLsb' 54 2).toNat = c → s.appendOpen i d.handle = false → r.ctl.getLsbD 48 = false →
          (∀ b, s.decl (r.slot.extractLsb' 32 8).toNat = some b → d.inlen ≤ b.inSize) → ∃ t, exec (.append p c) s = .next t ∧
          t.stream i = { r with ctl := setFld r.ctl 62 60 2, reqid := d.reqid, resaddr := d.resaddr, idig := sha384 (f.input.take d.inlen) } ∧
          (∀ j, j ≠ i → t.stream j = s.stream j) ∧ t.gate.fetched = markDone (0, d.handle, true) p c s.gate.fetched ∧
          (∀ m, s.mirrorTo = some m → t.unmirrored i = true) ∧ t = { told s t with gate := t.gate }))) ∧
    (reqOp d = 3 → (s.named p d.handle = .bad → exec (.close p c) s =
        .next { s with gate := { s.gate with fetched := markDone (1, d.handle, false) p c s.gate.fetched } }) ∧
      (∀ i st, s.named p d.handle = .here i → st = ((s.stream i).ctl.extractLsb' 60 3).toNat → ∃ t, exec (.close p c) s = .next t ∧
        t.gate.fetched = markDone (0, d.handle, false) p c s.gate.fetched ∧ (∀ j, j ≠ i → t.stream j = s.stream j) ∧
        (st = 2 ∨ st = 3 → t.stream i = s.stream i ∧ i ∈ t.gate.closing ∧ t.regs = s.regs) ∧
        (st ≠ 2 → st ≠ 3 →
          t.stream i = { s.stream i with ctl := setFld (setFld (s.stream i).ctl 63 63 0) 62 60 4 } ∧
          (s.fld 0x110 41 21 ≠ 0 → t.fld 0x110 41 21 + 1 = s.fld 0x110 41 21)) ∧
        (∀ off, off ≠ 0x110 → t.reg off = s.reg off) ∧
        t = { told s t with regs := t.regs, gate := t.gate })) ∧
    (reqOp d = 4 → (s.named p d.handle = .bad → exec (.roll p c) s =
        .next { s with gate := { s.gate with fetched := markDone (1, d.handle, false) p c s.gate.fetched } }) ∧
      (∀ i r, s.named p d.handle = .here i → r = s.stream i → (r.ctl.extractLsb' 60 3).toNat = 1 →
        (s.appendOpen i d.handle = true → exec (.roll p c) s =
          .next { s with gate := { s.gate with fetched := markDone (3, d.handle, false) p c s.gate.fetched } }) ∧
        (s.appendOpen i d.handle = false → s.mayOpen p = false → exec (.roll p c) s =
          .next { s with gate := { s.gate with fetched := markDone (5, d.handle, false) p c s.gate.fetched } }) ∧
        (∀ n, s.appendOpen i d.handle = false → s.mayOpen p = true → s.freeRecord = some n → ∃ t, exec (.roll p c) s = .next t ∧
          n ≠ i ∧ (t.stream n).key = d.key ∧
          (t.stream n).ctl = BitVec.ofNat 64 (2 ^ 63 + 2 ^ 60 + p * 2 ^ 56 + (r.ctl.extractLsb' 54 2).toNat * 2 ^ 54 +
            ((s.stream n).ctl.setWidth 24).toNat) ∧
          t.stream i = { r with ctl := setFld (setFld r.ctl 63 63 0) 62 60 4 } ∧
          (∀ j, j ≠ i → j ≠ n → t.stream j = s.stream j) ∧
          ((∀ b, s.decl (r.slot.extractLsb' 32 8).toNat = some b → ∃ m o q,
              s.placeAt (BitVec.ofNat 64 (stateAt b (r.slot.setWidth 32).toNat (r.ctl.extractLsb' 53 1).toNat)) = .dram m o q) →
            (∀ off, off ≠ 0x110 → off ≠ partOff p 4 → t.reg off = s.reg off) ∧ t.cores = s.cores))))

/-- A write of a ring's CFG (R348): one that enables it sets EN and the size; one that takes it out of use clears its pointers,
its halt and the descriptors fetched from it. A reset of a VF (R375) that is present and enabled (R341) clears the rings of its
partition and its MSI-X table and discards what was
fetched; its accepted requests end with HOST_RESET. A reset of the PF does the same for every partition, and the apertures
and patch table are as after reset. PERST_N low, once its filter accepts it (R339), and the loss of the host's link, clear HOST
and RINGS (R419, R460), and no VF is enabled then (log 50); the
link's coming up sets HOST once the endpoint is released. None changes a core or memory. -/
def Obligations.RingsAndFunctionsAreReset : Prop :=
  (∀ (s : State) (p ring off : Nat) (v : BitVec 64), off = (if ring = 3 then cqOff p 1 else rqOff p ring 1) →
    (16 ≤ p ∨ 4 ≤ ring → exec (.ringEnableWrite p ring v) s = .next s) ∧
    (p < 16 → ring < 4 → s.rings = false → exec (.ringEnableWrite p ring v) s = .next s) ∧
    (p < 16 → ring < 4 → s.rings = true → v.getLsbD 63 = true → ∃ t, exec (.ringEnableWrite p ring v) s = .next t ∧
      t.fld off 63 63 = 1 ∧ t.fld off 4 0 = (v.setWidth 5).toNat ∧ (ring < 3 → t.fld off 62 62 = s.fld off 62 62) ∧
      (∀ o, o ≠ off → t.reg o = s.reg o) ∧ t = { s with regs := t.regs }) ∧
    (p < 16 → ring < 3 → s.rings = true → v.getLsbD 63 = false → ∃ t, exec (.ringEnableWrite p ring v) s = .next t ∧
      t.fld off 63 63 = 0 ∧ t.fld off 62 62 = 0 ∧ t.reg (rqOff p ring 2) = 0 ∧
      t.gate.fetched = s.gate.fetched.filter (fun f => !(f.part == p && f.ring == ring)) ∧
      (∀ o, o ≠ off → o ≠ rqOff p ring 2 → t.reg o = s.reg o) ∧
      t = { told s t with regs := t.regs, gate := t.gate }) ∧
    (p < 16 → ring = 3 → s.rings = true → v.getLsbD 63 = false → ∃ t, exec (.ringEnableWrite p ring v) s = .next t ∧
      t.fld off 63 63 = 0 ∧ t.reg (cqOff p 2) = 0 ∧ Tab.find t.gate.unsig p = none ∧
      (∀ o, o ≠ off → o ≠ cqOff p 2 → t.reg o = s.reg o) ∧ t = { s with regs := t.regs, gate := t.gate })) ∧
  (∀ (s : State) (p : Nat), (16 ≤ p ∨ s.vfOn p = false → exec (.flrVf p) s = .next s) ∧
    (p < 16 → s.vfOn p = true → ∃ t, exec (.flrVf p) s = .next t ∧ t = { told s t with regs := t.regs, gate := t.gate } ∧
      (∀ vf w, w < 256 → t.msixWord vf w = if vf = some p then 0 else s.msixWord vf w) ∧
      (∀ c w, c < 3 → w < 3 → t.reg (rqOff p c w) = 0 ∧ t.reg (cqOff p w) = 0) ∧
      (∀ off, (∀ c w, c < 3 → w < 3 → off ≠ rqOff p c w ∧ off ≠ cqOff p w) → t.reg off = s.reg off) ∧
      t.gate.fetched = s.gate.fetched.filter (fun f => f.part != p) ∧
      t.gate.appends = s.gate.appends.map (fun a => if a.part = p then { a with hostReset := true } else a) ∧
      t.gate.results = s.gate.results.map (fun r => if r.part = p then { r with status := 8, writes := [] } else r))) ∧
  (∀ s : State, ∃ t, exec .flrPf s = .next t ∧
    t = { told s t with regs := t.regs, gate := t.gate, hostOut := t.hostOut } ∧
    (∀ p w, p < 16 → w < 3 → (∀ c, c < 3 → t.reg (rqOff p c w) = 0) ∧ t.reg (cqOff p w) = 0) ∧
    (∀ off, 0x2000 ≤ off → off < 0x2400 → t.reg off = regReset off) ∧
    (∀ off, 0x318000 ≤ off → off < 0x320000 → t.reg off = regReset off) ∧
    (∀ f, f ∈ t.gate.fetched → 16 ≤ f.part) ∧ (natBit s.boot.miss 0 = false → t.hostReady = s.hostReady)) ∧
  (∀ (s : State) (rest : List (Nat × Bool × Nat)), rest = s.cad.inputs.filter (fun x => x.1 != 10) →
    (s.fld 0x400850 4 0 = 0 → exec (.perstN true) s = .next { s with cad := { s.cad with inputs := rest } } ∧
      exec (.perstN false) s = exec .hostLinkDown { s with cad := { s.cad with inputs := rest } }) ∧
    (∀ level, s.fld 0x400850 4 0 ≠ 0 → exec (.perstN level) s =
      .next { s with cad := { s.cad with inputs := rest ++ [(10, level, s.fld 0x400850 4 0)] } }) ∧
    (∀ level n, s.cad.inputs = [(10, level, n)] →
      (1 < n → s.filterTick = { s with cad := { s.cad with inputs := [(10, level, n - 1)] } }) ∧
      (n ≤ 1 → level = false → s.filterTick = State.linkOff { s with cad := { s.cad with inputs := [] } })) ∧
    exec .hostLinkDown s = .next s.linkOff) ∧
  (∀ s : State,
    (∃ t, exec .hostLinkDown s = .next t ∧
      t = { s with regs := t.regs, hostOut := t.hostOut, gate := { s.gate with vfs := 0, pends := t.gate.pends } } ∧
      t.hostReady = false ∧ t.rings = false ∧ (∀ off, off ≠ 0x430010 → t.reg off = s.reg off)) ∧
    (∀ vfs, natBit s.boot.outputs 5 = false ∨ (natBit s.boot.released 0 = false ∧ s.recoveryMode = false) ∨ s.boot.power = false →
      exec (.hostLinkUp vfs) s = .next s) ∧
    (∀ vfs, natBit s.boot.outputs 5 = true → (natBit s.boot.released 0 = true ∨ s.recoveryMode = true) → s.boot.power = true →
      natBit s.boot.miss 0 = false → ∃ t, exec (.hostLinkUp vfs) s = .next t ∧
        t = { s with regs := t.regs, hostOut := t.hostOut, gate := { s.gate with vfs := min vfs s.totalVfs, pends := t.gate.pends } } ∧
        t.hostReady = true ∧ (∀ off, off ≠ 0x430010 → t.reg off = s.reg off)))

/-- COMMIT (R370) waits until every completion word of the oldest frozen batch has its SEQ, and then until the mirror, if there is
one, has acknowledged the new records (R363, R370): then the batch is committed, LAST is
its SEQ, every slot's record goes back to state 1 with B turned, POS and AUDSEQ one further, and one result for each is
queued. The buffers and results lie in DRAM (R368, R370). The moderation timer (R348) signals the result ring MTIM microseconds
after the first descriptor that has not been signalled. A vector that is signalled goes to the host, or waits while its mask is
set and goes when the mask falls (R342; log 50). The alternate gateway that takes over (R376) sets ACTIVE and takes the primary's
records from the mirror, but an APPEND that the primary had not accepted; a primary, or an active one, does nothing. -/
def Obligations.BatchesCommitAndGatewaysTakeOver : Prop :=
  (∀ (s : State) (e : Nat), (256 ≤ e → exec (.commit e) s = .next s) ∧
    (e < 256 → (s.oldestFrozen e = none ∨ s.decl e = none) → exec (.commit e) s = .next s) ∧
    (∀ f d w, e < 256 → s.oldestFrozen e = some f → s.decl e = some d → w = s.wordsDone f d →
      (s.gwActive = false ∨ s.streamReady = false ∨ s.voided f = true → exec (.commit e) s = .next s) ∧
      (s.gwActive = true → s.streamReady = true → s.voided f = false →
        (f.found = none → s.tickNow < f.start + 68 + s.fld (ltOff e 7) 31 0 → exec (.commit e) s = .next s) ∧
        (f.found = none → f.start + 68 + s.fld (ltOff e 7) 31 0 ≤ s.tickNow → w.1 = false → exec (.commit e) s = .next w.2) ∧
        (f.found = none → f.start + 68 + s.fld (ltOff e 7) 31 0 ≤ s.tickNow → w.1 = true →
          (∃ m b q, s.placeAt (BitVec.ofNat 64 (s.wordAt f.lte d.ncmt f.seq 0)) = .dram m b q) →
          ∃ (u : State) (g : Frozen), g = { f with found := some s.tally } ∧ g ∈ u.gate.frozen ∧
            ((∃ x, x ∈ f.slots ∧ u.unmirrored x.2.idx = true) → exec (.commit e) s = .next u) ∧
            ((∀ x, x ∈ f.slots → u.unmirrored x.2.idx = false) →
              exec (.commit e) s = .next (u.applyCommit g d (fun _ => none))) ∧
            (∀ m x, s.mirrorTo = some m → x ∈ f.slots → u.unmirrored x.2.idx = true) ∧
            (s.mirrorTo = none → ∀ i, u.unmirrored i = s.unmirrored i)) ∧
        (∀ t0, f.found = some t0 → (∃ x, x ∈ f.slots ∧ s.unmirrored x.2.idx = true) → exec (.commit e) s = .next s) ∧
        (∀ t0, f.found = some t0 → (∀ x, x ∈ f.slots → s.unmirrored x.2.idx = false) →
          (∀ x, x ∈ f.slots → ∃ m b q, s.placeAt (s.stream x.2.idx).resloc = .dram m b q) →
          ∃ t, exec (.commit e) s = .next t ∧
            t.reg (ltOff e 5) = BitVec.ofNat 64 f.seq ∧ t.gate.frozen = s.gate.frozen.erase f ∧
            t.gate.results.length = s.gate.results.length + f.slots.length ∧ t.cores = s.cores ∧ t.pending = s.pending ∧
            (∀ j a r, f.slots = [(j, a)] → a.idx ∉ s.gate.closing → r = s.stream a.idx →
              t.stream a.idx = { r with
                ctl := setFld (setFld (setFld r.ctl 62 60 1) 53 53 (1 - (r.ctl.extractLsb' 53 1).toNat)) 48 24
                  ((r.ctl.extractLsb' 24 25).toNat + 1),
                audseq := r.audseq + 1, deadline := BitVec.allOnes 64 } ∧
              ∃ x, t.gate.results = s.gate.results ++ [x] ∧ x.part = a.part ∧ x.reqid = a.reqid ∧ x.handle = a.handle ∧
                x.status = (if a.hostReset then 8 else 0) ∧ x.late = decide (r.deadline.toNat < s.tally) ∧
                x.pos = (r.ctl.extractLsb' 24 25).toNat ∧ x.audseq = r.audseq + 1))))) ∧
  ((∀ (s : State) (p : Nat), (16 ≤ p → exec (.msixMtimExpiry p) s = .next s) ∧
    (p < 16 → Tab.find s.gate.unsig p = none → exec (.msixMtimExpiry p) s = .next s) ∧
    (∀ n t0, p < 16 → Tab.find s.gate.unsig p = some (n, t0) →
      (s.rings = true → 0 < n → 0 < s.fld (cqOff p 1) 15 8 → t0 + 25 * s.fld (cqOff p 1) 15 8 ≤ s.tally →
        exec (.msixMtimExpiry p) s = .next (State.interrupt { s with gate := { s.gate with unsig := Tab.erase p s.gate.unsig } }
          (some p) (s.fld (cqOff p 1) 42 32))) ∧
      (s.rings = false ∨ n = 0 ∨ s.fld (cqOff p 1) 15 8 = 0 ∨ s.tally < t0 + 25 * s.fld (cqOff p 1) 15 8 →
        exec (.msixMtimExpiry p) s = .next s))) ∧
  (∀ (s : State) (vf : Option Nat) (v : Nat) (w : Word),
    (s.masked vf v = false → s.interrupt vf v = { s with hostOut := s.hostOut ++ [.msix vf v] }) ∧
    (s.masked vf v = true → v < 128 → (s.interrupt vf v).hostOut = s.hostOut ∧
      (w.getLsbD 32 = false → ((s.interrupt vf v).writeMsix vf (2 * v + 1) w).hostOut = s.hostOut ++ [.msix vf v] ∧
        ((s.interrupt vf v).writeMsix vf (2 * v + 1) w).masked vf v = false)))) ∧
  (∀ s : State, (s.gwRole ≠ 2 ∨ s.gwActive = true → exec .gatewayTakeover s = .next s) ∧
    (s.gwRole = 2 → s.gwActive = false → ∃ t, exec .gatewayTakeover s = .next t ∧ t.gwActive = true ∧ t.gwRole = 2 ∧
      t.pending = s.pending ∧
      (∀ ms, ms = s.fab.sysIn.filter (fun f => f.type == 7 && f.srcmod == s.primaryGw) →
        (∀ x, x ∈ s.gate.streams → (x.2.ctl.extractLsb' 60 3).toNat ≠ 2) →
        (ms = [] → ∀ i, t.stream i = s.stream i) ∧
        (∀ f i r, ms = [f] → i < 2 ^ 32 → f.body.take 5 = bytesLE 1 1 ++ bytesLE i 4 → r = StreamRec.ofBytes (f.body.drop 5) →
          t.stream i = (if (r.ctl.extractLsb' 60 3).toNat = 2 then r.unpended else r) ∧ ∀ j, j ≠ i → t.stream j = s.stream j))))

/-- An aperture (R345) that is not enabled, or is not there (a VF that is not present and enabled, R341; the PF's in recovery mode,
R417), answers a read as unsupported and drops a write, as one without write permission does; without HOST nothing happens. An enabled one reaches the global address that its register maps: an access to DRAM
joins the pool's queue line by line, one to a scratchpad the core's EXT-U queue, a read of the control space returns its
bytes, and a write to it while HWEN = 0 is counted and dropped (R344). No memory changes at once. -/
def Obligations.AperturesReachTheModule : Prop :=
  ∀ (s : State) (r : ApertureReq), (s.hostReady = true → s.apertureReg r = none → exec (.apertureAccess r) s =
      .next (if r.write.isSome then s else { s with hostOut := s.hostOut ++ [.unsupported] })) ∧
    (∀ p, r.vf = some p → (s.apertureReg r = if s.vfOn p = true ∧ r.index < 4 then some (0x2200 + 0x20 * p + 8 * r.index) else none)) ∧
    (r.vf = none → (s.apertureReg r = if r.index < 64 ∧ s.recoveryMode = false then some (0x2000 + 8 * r.index) else none)) ∧
    (s.hostReady = false → exec (.apertureAccess r) s = .next s) ∧
    (∀ off w n, s.apertureReg r = some off → w = s.reg off → n = (r.write.map List.length).getD r.len →
      (s.hostReady = true → w.getLsbD 63 = false → exec (.apertureAccess r) s =
        .next (if r.write.isSome then s else { s with hostOut := s.hostOut ++ [.unsupported] })) ∧
      (s.hostReady = true → w.getLsbD 63 = true → w.getLsbD 62 = false → r.write.isSome = true →
        exec (.apertureAccess r) s = .next s) ∧
      (∀ a, s.hostReady = true → w.getLsbD 63 = true → (w.getLsbD 62 = true ∨ r.write = none) →
        a = BitVec.ofNat 64 ((w.setWidth 33).toNat * 2 ^ 30 + r.offset % 2 ^ 30) →
        (∀ m b q, s.placeAt a = .dram m b q → s.memReady m = true → ∃ t, exec (.apertureAccess r) s = .next t ∧
          t = { s with dram := t.dram } ∧ (∀ j, (t.dramOf j).mem = (s.dramOf j).mem) ∧
          Tab.get (fun _ => []) (t.dramOf m).queues 16 = Tab.get (fun _ => []) (s.dramOf m).queues 16 ++
            (linesOf b n).map (fun l => {
              ready := s.now, line := l.1, off := l.2.1, len := l.2.2.1,
              write := r.write.map (fun bs => slice bs l.2.2.2 l.2.2.1), for_ := .host, group := 0, gen := 0,
              part := r.vf.getD 0 })) ∧
        (∀ u b q key, s.placeAt a = .spad u b q → s.key u = some key → exec (.apertureAccess r) s =
          .next (s.setCoreAt key { s.coreAt key with extU := (s.coreAt key).extU ++ [⟨b, n, r.write, .host⟩] })) ∧
        (∀ sp o, s.placeAt a = .shut sp o → sp ≠ 3 → r.write = none → ∃ t, exec (.apertureAccess r) s = .next t ∧
          t = { s with latched := t.latched, hostOut := t.hostOut } ∧
          (n ≠ 4 → t.hostOut = s.hostOut ++ [.data ((List.range n).map (fun i => s.ctlByte (o + i)))])) ∧
        (∀ sp o, s.placeAt a = .shut sp o → r.write.isSome = true → s.fld 0x108 63 63 = 0 → exec (.apertureAccess r) s =
          .next (s.setFld 0x108 31 0 (s.fld 0x108 31 0 + 1)))))

/-! ### Batches, shares and engine time -/

/-- LAUNCH_TABLE_FIRE (R365, R366): a valid entry of a running partition whose NEXT lies eight ticks ahead is launched: SEQ one
higher, its messages at the hub for tally NEXT, and the launch recorded; a one-shot entry is spent. Any other entry does
nothing; one on an aborted group, or on a group with a unit that waits for repair (R36, R40, R393), or while the travel-time table
is stale (R212), only advances its NEXT. BATCH_FREEZE (R368, R369): with a launch of the tally in progress,
on the active gateway, what the open batch holds fills the buffer as far as its slots go and leaves the open batch, and the
batch is frozen under the launch's SEQ; without a declaration, or a launch, nothing happens. ENGINE_TIME_CHARGE (R371) takes the oldest kernel that has ended on the core and is not yet charged: its running cycles are added
to its partition's engine time and taken from its deficit; SHARE_PERIOD (R372) credits every partition its share, within one period
either way, at a multiple of 262144 ticks. -/
def Obligations.LaunchesBatchesAndShares : Prop :=
  (∀ (s : State) (e : Nat), (256 ≤ e → exec (.launchTableFire e) s = .next s) ∧
    (e < 256 → (s.ltV e = false ∨ s.partRun (s.ltPart e) = false ∨ s.ltNext e ≠ s.tally + 8) →
      exec (.launchTableFire e) s = .next s) ∧
    (e < 256 → s.ltV e = true → s.partRun (s.ltPart e) = true → s.ltNext e = s.tally + 8 →
      ((∃ a, a ∈ s.aborts ∧ a.group = s.ltGroup e) ∨ s.launchHeld (s.ltGroup e) = true ∨ s.fld 0x200000 62 62 = 1 →
        exec (.launchTableFire e) s = .next (if s.fld (ltOff e 0) 62 62 = 1 then
          s.setReg (ltOff e 1) (s.reg (ltOff e 1) + BitVec.ofNat 64 (s.fld (ltOff e 2) 31 0)) else s)) ∧
      ((∀ a, a ∈ s.aborts → a.group ≠ s.ltGroup e) → s.launchHeld (s.ltGroup e) = false → s.fld 0x200000 62 62 = 0 → 16384 ≤ s.ltNext e → s.fld 0x430010 60 60 = 1 →
        ∃ t r, exec (.launchTableFire e) s = .next t ∧ t.ltSeq e = (s.ltSeq e + 1) % 2 ^ 64 ∧ r.seq = t.ltSeq e ∧
          r.tally = s.ltNext e ∧ r.group = s.ltGroup e ∧ r.part = s.ltPart e ∧ r.tmpl = s.fld (ltOff e 0) 56 52 ∧
          r.patches = s.launchPatches e r.seq ∧ (Tab.get (fun _ => []) t.launches e).getLast? = some r ∧
          t.hubQ.map (fun q => (q.msg.tally, q.msg.body, q.due)) = s.hubQ.map (fun q => (q.msg.tally, q.msg.body, q.due)) ++
            (launchMsgs r).map (fun m => (some (s.ltNext e), m, none)) ∧
          (s.fld (ltOff e 0) 62 62 = 0 → t.ltV e = false) ∧
          (s.fld (ltOff e 0) 62 62 = 1 → t.reg (ltOff e 1) = s.reg (ltOff e 1) + BitVec.ofNat 64 (s.fld (ltOff e 2) 31 0)) ∧
          (∀ off, (∀ w, w < 5 → off ≠ ltOff e w) → t.reg off = s.reg off) ∧
          t = { s with regs := t.regs, launches := t.launches, hubQ := t.hubQ }))) ∧
  ((∀ (s : State) (e : Nat), (256 ≤ e → exec (.batchFreeze e) s = .next s) ∧
    (e < 256 → (s.gwActive = false ∨ s.decl e = none ∨ s.ltSlots e = 0 ∨
      (Tab.get (fun _ => []) s.launches e).find? (fun r => r.tally == s.tally) = none) → exec (.batchFreeze e) s = .next s) ∧
    (∀ d r fill, e < 256 → s.gwActive = true → s.decl e = some d → 0 < s.ltSlots e →
      (Tab.get (fun _ => []) s.launches e).find? (fun r => r.tally == s.tally) = some r →
      (∀ f, f ∈ s.gate.frozen → f.lte = e → f.seq % 2 ≠ r.seq % 2) →
      fill = placeBatch (s.ltSlots e) (s.fld (ltOff e 0) 39 24) (s.gate.appends.filter (fun a => a.lte == e)) →
      ∃ t, exec (.batchFreeze e) s = .next t ∧
        t.gate.frozen = s.gate.frozen ++
          [{ lte := e, seq := r.seq, start := s.tickNow, slots := fill, rkd := r.rkd, dbg := r.dbg }] ∧
        t.gate.appends = s.gate.appends.filter (fun a => !(fill.map (fun x => x.2)).contains a) ∧
        (∀ i, (∀ x, x ∈ fill → x.2.idx ≠ i) → t.stream i = s.stream i) ∧
        (∀ j a, fill = [(j, a)] → (t.stream a.idx).ctl = setFld (s.stream a.idx).ctl 62 60 3) ∧
        t = { told s t with gate := t.gate, dram := t.dram, raised := t.raised })) ∧
  (∀ (s : State) (u : CoreId) (key : Nat), s.key u = some key →
    ((s.coreAt key).kernels = [] → exec (.engineTimeCharge u) s = .next (s.setCoreAt key (s.coreAt key))) ∧
    (∀ p cycles rest, (s.coreAt key).kernels = (p, cycles) :: rest → ∃ t, exec (.engineTimeCharge u) s = .next t ∧
      t = { s with regs := t.regs, cores := (s.setCoreAt key { s.coreAt key with kernels := rest }).cores } ∧
      t.reg (partOff p 2) = s.reg (partOff p 2) + BitVec.ofNat 64 cycles ∧
      t.reg (partOff p 3) = BitVec.ofInt 64 (max (-(2 ^ 63 : Int)) ((s.reg (partOff p 3)).toInt - cycles)) ∧
      (∀ off, off ≠ partOff p 2 → off ≠ partOff p 3 → t.reg off = s.reg off))) ∧
  (∀ s : State, (¬ 262144 ∣ s.tally → exec .sharePeriod s = .next s) ∧
    (∀ q sum, 262144 ∣ s.tally → q = s.readyCores * (s.tickNow - s.gate.periodAt) →
      sum = (((List.range 16).filter (fun p => s.fld (partOff p 0) 63 63 == 1)).map (fun p => s.fld (partOff p 0) 57 48)).sum →
      ∃ t, exec .sharePeriod s = .next t ∧ t = { s with regs := t.regs, gate := { s.gate with periodAt := s.tickNow } } ∧
        (∀ p, p < 16 → t.reg (partOff p 3) =
          if s.fld (partOff p 0) 63 63 = 1 then BitVec.ofInt 64 (max (-(q : Int)) (min (q : Int)
            ((s.reg (partOff p 3)).toInt + ((q * s.fld (partOff p 0) 57 48 / sum : Nat) : Int))))
          else s.reg (partOff p 3)) ∧
        (∀ off, (∀ p, p < 16 → off ≠ partOff p 3) → t.reg off = s.reg off))))

/-! ### Bring-up -/

/-- A level of RESET_N is accepted when it has held for 250 ticks of 40 ns (R339). A cold reset (R454), by RESET_N low, brings
everything back to its reset value but what NV die, fuses, key RAM, the silicon
and the straps hold; RESET_N high is accepted, after a cold reset where the rails had failed. Losing the input power (R455)
aborts the bakes of every partition that reaches the module, stops the compute dies and powers the module down; losing the
battery (R456) invalidates the key. The choice of a slot (R407, R412, R416): once, after RESET_N and with power. Without a
pending slot the active one is tried first; it boots with its version and its body, and MC0 runs. Where no slot passes, the
reasons stand in MGC.BOOT and only HOSTLINK and SIDEBAND are released. A trial boot is confirmed only after every management
core has been ready and a negotiation successful for 600 s, and once the NV die takes writes (R414). -/
def Obligations.PowerResetAndBoot : Prop :=
  (∀ s : State,
    (∀ level, exec (.resetN level) s =
      .next { s with cad := { s.cad with inputs := s.cad.inputs.filter (fun x => x.1 != 0) ++ [(0, level, 250)] } }) ∧
    (∀ level n, s.cad.inputs = [(0, level, n)] →
      (1 < n → s.filterTick = { s with cad := { s.cad with inputs := [(0, level, n - 1)] } }) ∧
      (n ≤ 1 → s.filterTick = State.resetLevel { s with cad := { s.cad with inputs := [] } } level)) ∧
    (∃ t : State, s.resetLevel false = t ∧ t.boot.resetHigh = false ∧ t.boot.nv = s.boot.nv ∧
      t.boot.keyRam = s.boot.keyRam ∧ t.boot.keyValid = s.boot.keyValid ∧ t.boot.rooth = s.boot.rooth ∧
      t.boot.revoked = s.boot.revoked ∧ t.boot.fuseKey = s.boot.fuseKey ∧ t.boot.svnFuses = s.boot.svnFuses ∧
      t.boot.booted = false ∧ t.pending = s.pending ∧ t.tally = State.reset.tally ∧ t.dram = State.reset.dram ∧
      t.gate = State.reset.gate ∧ (∀ key, ∃ n, t.coreAt key = { Core.dflt key with fctr := n }) ∧
      (∀ off, (∀ d k, d < 4 → k < 12 → off ≠ clOff d k 0) → off ≠ 0x400010 → t.reg off = regReset off) ∧
      (∀ d k, d < 4 → k < 12 → t.reg (clOff d k 0) = setFld (setFld (s.reg (clOff d k 0)) 24 23 0) 4 0 0) ∧
      t.fld 0x400010 5 0 = s.fld 0x400010 5 0) ∧
    (s.boot.power = true → s.resetLevel true = { s with boot := { s.boot with resetHigh := true, power := true } }) ∧
    (s.boot.power = false → s.resetLevel true =
      { s.coldReset with boot := { s.coldReset.boot with resetHigh := true, power := true } }) ∧
    (∃ t : State, exec .inputPowerLoss s = .next t ∧ t.boot = { s.boot with power := false } ∧ t.cad.stopped = true ∧
      BakesStopped s t (s.groupParts s.me) none ∧ (∀ d, d < 4 → t.fld 0x430010 (49 + d) (49 + d) = 0) ∧
      t.tally = s.tally ∧ t.pending = s.pending) ∧
    exec .vbatLoss s = .next { s with boot := { s.boot with keyValid := false } }) ∧
  ((∀ s : State, (s.boot.booted = true ∨ s.boot.resetHigh = false ∨ s.boot.power = false → exec .bootSlotChoice s = .next s) ∧
    (s.boot.booted = false → s.boot.resetHigh = true → s.boot.power = true →
      (∃ t : State, exec .bootSlotChoice s = .next t ∧ t.boot.booted = true ∧ t.cores = s.cores ∧ t.tally = s.tally ∧
        t.pending = s.pending) ∧
      (∀ x, s.bootRec.pending = 0 → s.checkSlot s.bootRec.active = (0, x) → ∃ t : State, exec .bootSlotChoice s = .next t ∧
        t.fld 0x430000 63 62 = s.bootRec.active ∧ t.fld 0x430000 61 61 = 0 ∧ t.boot.body = x.body ∧ t.boot.nsec = x.nsec ∧
        t.reg 0x430008 = BitVec.ofNat 64 (x.num 8 8) ∧ t.mcState 0 = 2 ∧ t.boot.nv = s.boot.nv) ∧
      (s.bootRec.pending = 0 → (∀ i, i < 3 → (s.checkSlot i).1 ≠ 0) → ∃ t : State, exec .bootSlotChoice s = .next t ∧
        (∀ i, i < 3 → t.fld 0x430000 (59 - 4 * i) (56 - 4 * i) = (s.checkSlot i).1) ∧ t.fld 0x108 63 63 = 1 ∧
        t.boot.released = 2 ^ 5 + 2 ^ 6 ∧ t.boot.outputs = 2 ^ 5 ∧ t.boot.nv = s.boot.nv))) ∧
  (∀ s : State,
    (s.hubWrites = false ∨ s.fld 0x430000 61 61 = 0 ∨ s.fld 0x430010 58 53 ≠ 63 ∨ s.fld 0x430480 63 62 ≠ 3 ∨
      s.tally < s.boot.since + 15000000000 → exec .pendingConfirmation s = .next s) ∧
    (s.hubWrites = true → s.fld 0x430000 61 61 = 1 → s.fld 0x430010 58 53 = 63 → s.fld 0x430480 63 62 = 3 →
      s.boot.since + 15000000000 ≤ s.tally → ∃ t : State, exec .pendingConfirmation s = .next t ∧ t.fld 0x430000 61 61 = 0 ∧
        t.boot.nv = (s.writeRec (s.fld 0x430000 63 62) 0 0).boot.nv ∧ s.boot.svnFuses ≤ t.boot.svnFuses ∧
        (∀ off, off ≠ 0x430000 → t.reg off = s.reg off) ∧ t = { s with regs := t.regs, boot := t.boot })))

/-- Entries of the start-up sequence complete in order (R414): one out of turn, or before a slot is booted, or in recovery mode,
does nothing; step 1 of a domain that has not failed drives its outputs, step 3 lets its writes through, and a failed
domain's entry fails; the entry that follows then runs. A lock that has not come fails the domain when its time limit is over, and
waits without a limit; in an installation the lock of a compute die or of RIDGE waits for the lock to CADENCE, and the release of a
compute die for the walk (R312). The release of a compute die sets the ready bits of the clusters that pass their test, SPOK of the
spares that pass theirs, and the ready bits of its stacks (R37, R410). A management core restarts with its image and counts it, runs
again with the next tick (log 69), and fails where it restarts twice within a second (R422); its watchdog restarts it after WDT ms
without a kick. -/
def Obligations.TheSequencerAndManagementCores : Prop :=
  ((∀ (s : State) (i lost tested spares : Nat), (16 ≤ i → exec (.sequencerStep i lost tested spares) s = .next s) ∧
    (i < 16 → (s.boot.booted = false ∨ s.recoveryMode = true ∨ i ≠ s.boot.next ∨ (s.reg (0x430100 + 8 * i)).getLsbD 63 = false) →
      exec (.sequencerStep i lost tested spares) s = .next s) ∧
    (∀ w step d solo, i < 16 → s.boot.booted = true → s.recoveryMode = false → i = s.boot.next → w = s.reg (0x430100 + 8 * i) →
      w.getLsbD 63 = true → step = (w.extractLsb' 60 3).toNat → d < 8 → (w.extractLsb' 48 8).toNat = 2 ^ d →
      (solo = true ↔ imageTopo s.boot.body s.boot.nsec = 0) →
      ((step = 1 ∨ step = 3 ∨ step = 4) → ∃ t : State, exec (.sequencerStep i lost tested spares) s = .next t ∧ t.boot.next = i + 1 ∧
        t.fld (0x430100 + 8 * i) 47 45 = (if step ≠ 4 ∧ natBit s.boot.failed d = true then 3 else 2) ∧
        t.boot.outputs = (if step = 1 ∧ natBit s.boot.failed d = false then nor s.boot.outputs (2 ^ d) else s.boot.outputs) ∧
        t.boot.writable = (if step = 3 ∧ natBit s.boot.failed d = false then nor s.boot.writable (2 ^ d) else s.boot.writable) ∧
        (i < 15 → (s.reg (0x430108 + 8 * i)).getLsbD 63 = true → t.fld (0x430108 + 8 * i) 47 45 = 1) ∧
        (∀ off, off ≠ 0x430100 + 8 * i → off ≠ 0x430108 + 8 * i → t.reg off = s.reg off) ∧
        t = { s with regs := t.regs, boot := t.boot }) ∧
      (step = 0 → natBit lost d = true → (w.setWidth 32).toNat = 0 → exec (.sequencerStep i lost tested spares) s = .next s) ∧
      (step = 0 → natBit lost d = true → (w.setWidth 32).toNat ≠ 0 →
        ∃ t : State, exec (.sequencerStep i lost tested spares) s = .next t ∧ t.boot.next = i + 1 ∧
          natBit t.boot.failed d = true ∧ t.fld (0x430100 + 8 * i) 47 45 = 3 ∧ t = { s with regs := t.regs, boot := t.boot }) ∧
      (natBit lost d = false → natBit s.boot.failed d = false → solo = false →
        (step = 0 ∧ (1 ≤ d ∧ d ≤ 4 ∨ d = 7) ∧ s.fld 0x400010 63 63 = 0 ∨
          step = 2 ∧ 1 ≤ d ∧ d ≤ 4 ∧ s.fld 0x400010 63 61 ≠ 7 ∧ s.walkFailed = false) →
        exec (.sequencerStep i lost tested spares) s = .next s) ∧
      (step = 2 → 1 ≤ d → d ≤ 4 → natBit lost d = false → natBit s.boot.failed d = false → s.boot.miss = 0 →
        (solo = true ∨ s.fld 0x400010 63 61 = 7) → ∃ t : State, exec (.sequencerStep i lost tested spares) s = .next t ∧
          t.boot.next = i + 1 ∧ t.fld (0x430100 + 8 * i) 47 45 = 2 ∧ t.boot.released = nor s.boot.released (2 ^ d) ∧
          (∀ k, k < 12 →
            t.fld 0x430018 (12 * (d - 1) + k) (12 * (d - 1) + k) = (natBit tested (12 * (d - 1) + k)).toNat ∧
            t.fld (clOff (d - 1) k 0) 24 24 = (natBit spares (12 * (d - 1) + k)).toNat) ∧
          (∀ m, m = 2 * (d - 1) ∨ m = 2 * (d - 1) + 1 → t.fld 0x430010 (41 + m) (41 + m) = 1) ∧ t.cores = s.cores)))) ∧
  (∀ (s : State) (i : Nat),
    (6 ≤ i → exec (.mcRestart i) s = .next s ∧ exec (.mcWatchdog i) s = .next s ∧ exec (.kick i) s = .next s) ∧
    (i < 6 →
      (s.mcState i ≠ 2 → s.mcState i ≠ 4 → exec (.mcRestart i) s = .next s) ∧
      (s.mcState i = 2 ∨ s.mcState i = 4 → ∃ t : State, exec (.mcRestart i) s = .next t ∧
        t = { signalled s t with regs := t.regs, boot := t.boot } ∧
        t.fld (mcOff i) 55 48 = (s.fld (mcOff i) 55 48 + 1) % 256 ∧ Tab.find t.boot.restarts i = some s.tally ∧
        t.reg (mcOff i + 8) = s.reg (mcOff i + 8) ∧ t.fld 0x430010 (53 + i) (53 + i) = 0 ∧
        ((∃ t0, Tab.find s.boot.restarts i = some t0 ∧ s.tally < t0 + 25000000) → t.mcState i = 4) ∧
        ((∀ t0, Tab.find s.boot.restarts i = some t0 → t0 + 25000000 ≤ s.tally) → t.mcState i = 3 ∧
          t.boot.loading = s.boot.loading ++ [(i, s.reg (mcOff i + 8))])) ∧
      (∀ ver, s.boot.loading = [(i, ver)] → s.boot.live = none → s.boot.mail = none → s.boot.miss = 0 →
        s.mcTick.mcState i = 2 ∧ s.mcTick.reg (mcOff i + 8) = ver ∧ s.mcTick.fld 0x430010 (53 + i) (53 + i) = 1 ∧
          s.mcTick.boot.loading = []) ∧
      (s.mcState i = 2 → 0 < s.fld (mcOff i) 47 32 →
        Tab.get (fun _ => 0) s.boot.kicks i + 25000 * s.fld (mcOff i) 47 32 ≤ s.tally →
        exec (.mcWatchdog i) s = exec (.mcRestart i) s) ∧
      (s.mcState i ≠ 2 ∨ s.fld (mcOff i) 47 32 = 0 ∨
        s.tally < Tab.get (fun _ => 0) s.boot.kicks i + 25000 * s.fld (mcOff i) 47 32 → exec (.mcWatchdog i) s = .next s) ∧
      exec (.kick i) s = .next (if s.mcState i = 2 then
        { s with boot := { s.boot with kicks := Tab.put i s.tally s.boot.kicks } } else s)))

/-- The mailbox (R427): a request waits while MC0 is not running, and a further one is counted and ignored; in recovery mode every
command but VERIFY, ACTIVATE and RESET
of the ROM is refused (status 1, the model's reading, log 26); a payload of the wrong length, or a command without a
meaning, is malformed (status 2). What the mailbox's commands do, MC0 running, outside recovery mode and with a payload of
their length (R411, R425, R427, R429): each answers with status 0 after its effect, or 1 where it refuses and has none. A LIVE
update restarts MC5 with the new image, each next core once the one before runs, and names the slot in the record at the end (log 69);
a core that fails ends it. -/
def Obligations.TheMailbox : Prop :=
  (∀ (s : State) (req : List (BitVec 8)) (i : Instr) (cmd need tag : Nat), tag = natLE (slice req 6 1) →
    (i, cmd, need) ∈ [(.negotiate req, 0x01, 42), (.keyload req, 0x08, 40), (.stage req, 0x10, 16), (.verify req, 0x11, 1),
      (.activate req, 0x12, 1), (.live req, 0x13, 1), (.restart req, 0x20, 1), (.mailboxAbort req, 0x30, 2),
      (.run req, 0x31, 4), (.mailboxReset req, 0x40, 0), (.mailboxUnknownCmd req, natLE (slice req 7 1), 0)] →
    (i ≠ .mailboxUnknownCmd req → natLE (slice req 7 1) = cmd → exec (.mailboxUnknownCmd req) s = exec i s) ∧
    ((i = .mailboxUnknownCmd req → cmd ∉ [0x01, 0x08, 0x10, 0x11, 0x12, 0x13, 0x20, 0x30, 0x31, 0x40]) →
      (s.mcReady 0 = false → s.recoveryMode = false → s.boot.mail = none →
        exec i s = .next { s with boot := { s.boot with mail := some (req.take 7 ++ [BitVec.ofNat 8 cmd] ++ req.drop 8) } }) ∧
      (s.mcReady 0 = false → s.recoveryMode = false → s.boot.mail ≠ none →
        exec i s = .next (s.setReg 0x431808 (s.reg 0x431808 + 1))) ∧
      (s.recoveryMode = true → romServes cmd = false → exec i s = .next (s.respond cmd tag 1)) ∧
      (s.mcReady 0 = true → s.recoveryMode = false → natLE (req.take 4) ≠ need → exec i s = .next (s.respond cmd tag 2)) ∧
      (s.mcReady 0 = true → s.recoveryMode = false → i = .mailboxUnknownCmd req → exec i s = .next (s.respond cmd tag 2))) ∧
    ∀ status, status < 256 → (s.respond cmd tag status).reg 0x431800 =
        BitVec.ofNat 64 (cmd % 256 * 2 ^ 56 + tag % 256 * 2 ^ 48 + status * 2 ^ 32) ∧
      (s.masked none 0 = false → (s.respond cmd tag status).hostOut = s.hostOut ++ [.msix none 0]) ∧
      (s.masked none 0 = true → (s.respond cmd tag status).hostOut = s.hostOut ∧ 0 ∈ (s.respond cmd tag status).gate.pends)) ∧
  (∀ (s : State) (req pl : List (BitVec 8)) (tag : Nat), s.mcReady 0 = true → s.recoveryMode = false → tag = natLE (slice req 6 1) →
    pl = slice req 8 (natLE (req.take 4)) →
    (natLE (req.take 4) = 42 → (∃ p, p < 16 ∧ s.partRun p = true) → exec (.negotiate req) s = .next (s.respond 0x01 tag 1)) ∧
    (natLE (req.take 4) = 42 → (∀ p, p < 16 → s.partRun p = false) → ∃ t : State, exec (.negotiate req) s = .next (t.respond 0x01 tag 0) ∧
      t.fld 0x430480 63 63 = 1 ∧ (t.fld 0x430480 62 62 = 1 ↔ natLE (slice pl 40 2) = s.fld 0x430480 47 32) ∧
      (natLE (slice pl 40 2) ≠ s.fld 0x430480 47 32 → ∀ j, j < 4 → t.reg (0x430460 + 8 * j) = 0) ∧
      t.boot.hver = BitVec.ofNat 64 (natLE (slice pl 32 8)) ∧ t = { signalled s t with regs := t.regs, boot := t.boot }) ∧
    (natLE (req.take 4) = 40 →
      (∀ k, keyUnwrap s.boot.fuseKey pl = some k → s.hubWrites = true → exec (.keyload req) s =
        .next ({ s with boot := { s.boot with keyRam := k, keyValid := true } }.respond 0x08 tag 0)) ∧
      (keyUnwrap s.boot.fuseKey pl = none ∨ s.hubWrites = false → exec (.keyload req) s = .next (s.respond 0x08 tag 1))) ∧
    (natLE (req.take 4) = 16 →
      (s.hubWrites = false ∨ slotSize 0 < natLE (slice pl 8 8) → exec (.stage req) s = .next (s.respond 0x10 tag 1)) ∧
      (∀ m b q, s.hubWrites = true → natLE (slice pl 8 8) ≤ slotSize 0 →
        s.placeAt (BitVec.ofNat 64 (natLE (pl.take 8))) = .dram m b q → ∃ t : State, exec (.stage req) s = .next (t.respond 0x10 tag 0) ∧
          t.boot.nv = Memory.setBytes s.boot.nv (slotBase s.spareSlot)
            (s.gaBytes 0 0 (natLE (pl.take 8)) (natLE (slice pl 8 8))).1 ∧
          t = { s with boot := { s.boot with nv := t.boot.nv }, freeCtr := t.freeCtr, dram := t.dram, raised := t.raised,
                       evs := t.evs }) ∧
      ((∀ m b q, s.placeAt (BitVec.ofNat 64 (natLE (pl.take 8))) ≠ .dram m b q) →
        (∀ m off, s.placeAt (BitVec.ofNat 64 (natLE (pl.take 8))) ≠ .away m 0 off) →
          exec (.stage req) s = .next (s.respond 0x10 tag 1))) ∧
    (natLE (req.take 4) = 1 →
      (2 ≤ natLE pl → exec (.verify req) s = .next (s.respond 0x11 tag 2) ∧ exec (.activate req) s = .next (s.respond 0x12 tag 2) ∧
        exec (.live req) s = .next (s.respond 0x13 tag 2)) ∧
      (natLE pl < 2 →
        ((s.checkSlot (natLE pl)).1 = 0 → ∃ t : State, exec (.verify req) s = .next (t.respond 0x11 tag 0) ∧ natLE pl ∈ t.boot.passed ∧
          t = { s with boot := { s.boot with passed := t.boot.passed } }) ∧
        ((s.checkSlot (natLE pl)).1 ≠ 0 → ∃ t : State, exec (.verify req) s = .next (t.respond 0x11 tag 1) ∧ natLE pl ∉ t.boot.passed ∧
          t = { s with boot := { s.boot with passed := t.boot.passed } }) ∧
        (natLE pl = s.fld 0x430000 63 62 ∨ s.hubWrites = false → exec (.activate req) s = .next (s.respond 0x12 tag 1) ∧
          exec (.live req) s = .next (s.respond 0x13 tag 1)) ∧
        (natLE pl ≠ s.fld 0x430000 63 62 → s.hubWrites = true →
          exec (.activate req) s = .next ((s.writeRec s.bootRec.active (natLE pl + 1) 0).respond 0x12 tag 0) ∧
          ((s.checkSlot (natLE pl)).1 ≠ 0 → exec (.live req) s = .next (s.respond 0x13 tag 1)) ∧
          (s.boot.live ≠ none → exec (.live req) s = .next (s.respond 0x13 tag 1)) ∧
          (∀ x, s.checkSlot (natLE pl) = (0, x) → s.boot.live = none → x.num 0x14 2 = s.fld 0x430480 47 32 →
            sameSections s.boot.body s.boot.nsec x.body x.nsec = true → ∃ t : State, exec (.live req) s = .next (t.respond 0x13 tag 0) ∧
              t.boot.body = x.body ∧ t.boot.nsec = x.nsec ∧
              t.boot.live = some (natLE pl, BitVec.ofNat 64 (x.num 8 8), [4, 3, 2, 1, 0]) ∧
              (s.mcState 5 = 2 → Tab.find s.boot.restarts 5 = none → t.mcState 5 = 3 ∧
                t.boot.loading = s.boot.loading ++ [(5, BitVec.ofNat 64 (x.num 8 8))]) ∧ t.cores = s.cores))) ∧
      (∀ slot ver i l, s.boot.live = some (slot, ver, i :: l) →
        (s.mcState (i + 1) = 2 →
          s.liveNext = State.restartMc { s with boot := { s.boot with live := some (slot, ver, l) } } ver i) ∧
        (s.mcState (i + 1) = 4 → s.liveNext = { s with boot := { s.boot with live := none } })) ∧
      (∀ slot ver, s.boot.live = some (slot, ver, []) → s.mcState 0 = 2 →
        s.liveNext = State.writeRec { s with boot := { s.boot with live := none } } slot s.bootRec.pending s.bootRec.tries) ∧
      (6 ≤ natLE pl → exec (.restart req) s = .next (s.respond 0x20 tag 2)) ∧
      (natLE pl < 6 → ∃ t : State, exec (.mcRestart (natLE pl)) s = .next t ∧ exec (.restart req) s = .next (t.respond 0x20 tag 0))) ∧
    (natLE (req.take 4) = 2 → ∃ t : State, exec (.faultDetect ⟨6, UnitForm.toId (.module s.me), natLE pl, none⟩) s = .next t ∧
      exec (.mailboxAbort req) s = .next (t.respond 0x30 tag 0)) ∧
    (natLE (req.take 4) = 4 → ∃ t : State, exec (.run req) s = .next (t.respond 0x31 tag 0) ∧
      (∀ p, p < 16 → t.partRun p = if natBit (natLE (pl.take 2)) p = true then natBit (natLE (pl.drop 2)) p else s.partRun p) ∧
      (∀ off, (∀ p, p < 16 → off ≠ partOff p 0) → t.reg off = s.reg off) ∧ t = { s with regs := t.regs, audit := t.audit }) ∧
    (natLE (req.take 4) = 0 → exec (.mailboxReset req) s = .next (s.respond 0x40 tag 0).coldReset))

/-- The recovery function (R417) answers in recovery mode only: a verify leaves its outcome and reason, only a slot that passed
becomes pending, and the cold reset is that of the pin's, with the event already signalled; BAR2 then writes the NV die
below the recovery slot, and reads it. A travel-time table within the bounds of R205 is published whole with the next EPOCH (R205,
R212), that of a pair of modules by the formulas of R301 from its fewest and most hops; one in force stays while
every path lies within it, and turns stale, with the dies concerned no longer ready, if one does not; one outside the bounds is not
published. -/
def Obligations.RecoveryAndTravelTimes : Prop :=
  (∀ s : State, (s.recoveryMode = false → exec .rcvVerifyA s = .next s ∧ exec .rcvVerifyB s = .next s ∧ exec .rcvPendA s = .next s ∧
      exec .rcvPendB s = .next s ∧ exec .rcvColdReset s = .next s) ∧
    (∀ slot i, s.recoveryMode = true → (slot = 0 ∧ i = .rcvVerifyA ∨ slot = 1 ∧ i = .rcvVerifyB) →
      ∃ t : State, exec i s = .next t ∧ t.fld 0x430300 59 58 = (if (s.checkSlot slot).1 = 0 then 2 else 3) ∧
        t.fld 0x430300 57 54 = (s.checkSlot slot).1 ∧ (slot ∈ t.boot.passed ↔ (s.checkSlot slot).1 = 0) ∧
        (∀ off, off ≠ 0x430300 → t.reg off = s.reg off) ∧
        (s.masked none 0 = false → t.hostOut = s.hostOut ++ [.msix none 0]) ∧
        t = { signalled s t with regs := t.regs, boot := { s.boot with passed := t.boot.passed } }) ∧
    (∀ slot i, s.recoveryMode = true → (slot = 0 ∧ i = .rcvPendA ∨ slot = 1 ∧ i = .rcvPendB) → exec i s = .next (
      if s.boot.passed.contains slot then (s.writeRec s.bootRec.active (slot + 1) 0).mailEvent else s.mailEvent)) ∧
    (s.recoveryMode = true → exec .rcvColdReset s = .next s.coldReset.mailEvent)) ∧
  (∀ (s : State) (offset len : Nat) (bytes : List (BitVec 8)),
    (s.recoveryMode = false ∨ s.hostReady = false → exec (.recoveryBar2Access offset (some bytes) len) s = .next s ∧
      exec (.recoveryBar2Access offset none len) s = .next s) ∧
    (s.recoveryMode = true → s.hostReady = true →
      exec (.recoveryBar2Access offset none len) s =
        .next { s with hostOut := s.hostOut ++ [.data (s.boot.nv.bytes offset len)] } ∧
      ∃ t : State, exec (.recoveryBar2Access offset (some bytes) len) s = .next t ∧
        t = { s with boot := { s.boot with nv := t.boot.nv } } ∧
        (∀ i v, bytes[i]? = some v → offset + i < 0xA000000 → t.boot.nv.byte (offset + i) = v) ∧
        (∀ a, (a < offset ∨ offset + bytes.length ≤ a ∨ 0xA000000 ≤ a) → t.boot.nv.byte a = s.boot.nv.byte a))) ∧
  (∀ (s : State) (image : List (BitVec 8)) (hops : List (Nat × Nat × Nat)) (m : Nat → Nat × Nat) (ok : Bool),
    (∀ off, m off = s.measured image hops off) → ok = travelOk image (travelEntries.map (fun e => (e.1, e.2, m e.1))) →
    (∀ i j a b, i < 64 → j < 64 → hops.find? (fun h => h.1 == 64 * i + j) = some (64 * i + j, a, b) →
      m (0x1000 + 4 * (64 * i + j)) = (35 + 31 * (a * s.ll + (a - 1) * 40) / 40,
        117 + (s.fld 0x200000 55 48 * (512 + b * s.ll + (b - 1) * 40) + 39) / 40)) ∧
    (ok = false → exec (.travelPublish image hops) s = .next s) ∧
    (s.fld 0x200000 63 62 = 2 → (∀ e, e ∈ travelEntries → s.outside e.1 (m e.1) = false) →
      exec (.travelPublish image hops) s = .next s) ∧
    (∀ e d, ok = true → s.fld 0x200000 63 62 = 2 → e ∈ travelEntries → d ∈ e.2 → s.outside e.1 (m e.1) = true →
      ∃ t : State, exec (.travelPublish image hops) s = .next t ∧ t.fld 0x200000 62 62 = 1 ∧ t.fld 0x200000 63 63 = 1 ∧
        t.fld 0x430010 (49 + d) (49 + d) = 0 ∧ t = { signalled s t with regs := t.regs } ∧
        (∀ off, off ≠ 0x200000 → off ≠ 0x430010 → t.reg off = s.reg off)) ∧
    (ok = true → s.fld 0x200000 63 62 ≠ 2 → ∃ t : State, exec (.travelPublish image hops) s = .next t ∧ t.fld 0x200000 63 63 = 1 ∧
      t.fld 0x200000 62 62 = 0 ∧ t.fld 0x200000 47 40 = (s.fld 0x200000 47 40 + 1) % 256 ∧
      (∀ e, e ∈ travelEntries → t.reg (0x200000 + e.1) = BitVec.ofNat 64 ((m e.1).2 * 65536 + (m e.1).1)) ∧
      (∀ i, i < 48 → t.reg (0x200040 + i) = BitVec.ofNat 64 (natLE (slice image (0x40 + i) 1) % 8)) ∧
      t = { signalled s t with regs := t.regs }))

/-! ### Tables and registers -/

/-- Writes of tables. A descriptor word takes its writable fields and keeps GEN, unless a bake of the group is queued or runs,
which sets LOCKED (R24, R26); a group section that leaves the tables or fails a check, of a member entry, of a group or of an outer
group that passed before, is refused and reported (R27). A queue
end that is bound is empty, or holds 32 credits (R151); a combining slot's words are written while the slot is idle (R161);
a window, a tag share and a sync object take their value (R256, R260, R266), the object's before the increments of the same die
cycle (R267). Each changes nothing else, and one that names nothing has no effect (log 60). -/
def Obligations.TableWritesTakeEffect : Prop :=
  (∀ (s : State) (offset : Nat) (v : BitVec 64), offset < 0x100000 ∨ 0x160000 ≤ offset →
    exec (.groupDescriptorWrite offset v) s = .next s) ∧
  (∀ (s : State) (i : Nat) (v : BitVec 64), i < 4096 →
    (s.groupBusy i = true → exec (.groupDescriptorWrite (gdOff i 0) v) s = .next (s.setFld 0x138 0 0 1)) ∧
    (s.groupBusy i = false → ∃ t : State, exec (.groupDescriptorWrite (gdOff i 0) v) s = .next t ∧ t = { s with regs := t.regs } ∧
      (∀ off, off ≠ gdOff i 0 → t.reg off = s.reg off) ∧ t.gdV i = v.getLsbD 63 ∧ t.gdSplit i = (v.extractLsb' 60 3).toNat ∧
      t.gdDepth i = (v.extractLsb' 56 4).toNat ∧ t.gdGen i = s.gdGen i ∧ t.gdPmask i = (v.extractLsb' 32 16).toNat ∧
      t.gdMbase i = (v.extractLsb' 16 16).toNat ∧ t.gdMcount i = (v.extractLsb' 0 16).toNat)) ∧
  (∀ (s t : State) (image : List (BitVec 8)), t = (regList image).foldl (fun s e => s.writeReg false e.1 e.2) s →
    ((∃ e, e ∈ regList image ∧ (e.1 < 0x100000 ∨ 0x160000 ≤ e.1)) → exec (.groupSectionLoad image) s = .next s.mailEvent) ∧
    ((∃ e i, e ∈ regList image ∧ gdOff i 0 ≤ e.1 ∧ e.1 < gdOff i 4 ∧ i < 4096 ∧ t.gdV i = true ∧ t.groupOk i = false) →
      exec (.groupSectionLoad image) s = .next s.mailEvent) ∧
    ((∃ e k, e ∈ regList image ∧ 0x120000 + 4 * k ≤ e.1 ∧ e.1 < 0x120004 + 4 * k ∧ k < 65536 ∧
        t.addresses (BitVec.ofNat 32 (t.reg (0x120000 + 4 * k)).toNat) = false) →
      exec (.groupSectionLoad image) s = .next s.mailEvent) ∧
    ((∃ i, i < 4096 ∧ t.gdV i = true ∧ t.groupOk i = false ∧ s.groupOk i = true) →
      exec (.groupSectionLoad image) s = .next s.mailEvent) ∧
    ((∀ e, e ∈ regList image → 0x100000 ≤ e.1 ∧ e.1 < 0x160000) → (∀ i, i < 4096 → t.gdV i = true → t.groupOk i = true) →
      (∀ e k, e ∈ regList image → 0x120000 + 4 * k ≤ e.1 → e.1 < 0x120004 + 4 * k → k < 65536 →
        t.addresses (BitVec.ofNat 32 (t.reg (0x120000 + 4 * k)).toNat) = true) →
      exec (.groupSectionLoad image) s = .next t ∧ t = { s with regs := t.regs })) ∧
  (∀ (s : State) (u : CoreId) (n word key : Nat) (v : BitVec 64) (c : Core), s.key u = some key → c = s.coreAt key →
    (48 ≤ n ∨ 4 ≤ word → exec (.queueBindingWrite u n word v) s = .next s) ∧
    (n < 48 → ∃ t : State, exec (.queueBindingWrite u n 0 v) s = .next t ∧ t = { s with cores := t.cores } ∧
      (∀ k, k ≠ key → t.coreAt k = s.coreAt k) ∧ (t.coreAt key).qkind n = (v.extractLsb' 62 2).toNat ∧
      ((v.extractLsb' 62 2).toNat = 1 → (t.coreAt key).qrd n = 0 ∧ (t.coreAt key).qwr n = 0) ∧
      ((v.extractLsb' 62 2).toNat = 2 → (t.coreAt key).chanIn n = []) ∧
      ((v.extractLsb' 62 2).toNat = 3 → (t.coreAt key).qwr n = 32) ∧
      (∀ off, off ≠ 0x1000 + 32 * n → (t.coreAt key).reg off = c.reg off) ∧ (t.coreAt key).mem = c.mem)) ∧
  (∀ (s : State) (d k n word : Nat) (v : BitVec 64),
    (4 ≤ d ∨ 12 ≤ k ∨ 64 ≤ n ∨ 4 ≤ word → exec (.combiningSlotWrite d k n word v) s = .next s) ∧
    (d < 4 → k < 12 → n < 64 → word < 4 → (2 ≤ word ∨ (s.slot d k n).idle = false) →
      exec (.combiningSlotWrite d k n word v) s = .next s) ∧
    (d < 4 → k < 12 → n < 64 → (s.slot d k n).idle = true → ∃ t : State, exec (.combiningSlotWrite d k n 0 v) s = .next t ∧
      t = { s with regs := t.regs } ∧ (∀ off, off ≠ clOff d k (0x2000 + 32 * n) → t.reg off = s.reg off) ∧
      (∀ b, b < 64 → (b < 16 ∨ (32 ≤ b ∧ b < 44) ∨ (50 ≤ b ∧ b < 57) ∨ 60 ≤ b) →
        (t.cmb d k n 0).getLsbD b = v.getLsbD b))) ∧
  (∀ (s : State) (w word : Nat) (v : BitVec 64),
    (256 ≤ w ∨ 4 ≤ word → exec (.windowWrite w word v) s = .next s) ∧
    (w < 256 → exec (.windowWrite w 3 v) s = .next s) ∧
    (w < 256 → word = 1 ∨ word = 2 → ∃ t : State, exec (.windowWrite w word v) s = .next t ∧ t = { s with regs := t.regs } ∧
      t.fld (winOff w word) 53 0 = (v.extractLsb' 0 54).toNat ∧ (∀ off, off ≠ winOff w word → t.reg off = s.reg off))) ∧
  (∀ (s : State) (d p : Nat) (v : BitVec 64), (4 ≤ d ∨ 16 ≤ p → exec (.tagPartitionWrite d p v) s = .next s) ∧
    (d < 4 → p < 16 → ∃ t : State, exec (.tagPartitionWrite d p v) s = .next t ∧ t = { s with regs := t.regs } ∧
      t.fld (tpOff d p) 47 32 = (v.extractLsb' 32 16).toNat ∧ t.fld (tpOff d p) 15 0 = (v.extractLsb' 0 16).toNat ∧
      (∀ off, off ≠ tpOff d p → t.reg off = s.reg off))) ∧
  (∀ (s : State) (d i : Nat) (v : BitVec 32), (4 ≤ d ∨ 32768 ≤ i → exec (.syncObjectWrite d i v) s = .next s) ∧
    (d < 4 → i < 32768 → ∃ t : State, exec (.syncObjectWrite d i v) s = .next t ∧ t = { s with sync := t.sync } ∧
      ((s.obj d i).at_ ≠ s.now + 1 → (t.obj d i).val = v.toNat) ∧
      ((s.obj d i).at_ = s.now + 1 → (t.obj d i).val = ((if (s.obj d i).rst then 0 else v.toNat) + (s.obj d i).sum) % 2 ^ 32) ∧
      (∀ e j, syncKey e j ≠ syncKey d i → t.obj e j = s.obj e j)))

/-- REGISTER_WRITE (R12-R14, R179, R344): the host's write to a place that is closed to it while HWEN = 0 is counted and
dropped; in recovery mode the host reaches the MGC block alone (R417), and a ring page, through BAR2 or a VF's BAR0, only while
RINGS is set (R342, R419); the lower half of a 64-bit register waits for the upper (R14); firmware's write of P0-P62 takes effect on a core
without a bake, and is ignored otherwise, as every write of P63 is. PARTITION_DEFINE is refused where it would grant more
than 32 Urgent credits (R353); a partition that becomes valid on a gateway starts a new chain (R437). A write of CORE.OWN
(R441) is ignored while a bake is queued or runs. With Z = 1 it zeroises the core: no byte of its scratchpad is listed,
S0-S15 and P0-P62 read zero, no template is valid, no queue end is bound, and the core zeroises for 128 cycles; the owner is
the partition written. No other core changes. -/
def Obligations.RegistersAndZeroisation : Prop :=
  ((∀ (s : State) (off bytes : Nat) (v : BitVec 64),
    (s.fld 0x108 63 63 = 0 → s.hostOpen off = false → s.recoveryMode = false ∨ 0x430000 ≤ off ∧ off < 0x440000 →
      exec (.registerWrite .host off bytes v) s = .next (s.setFld 0x108 31 0 (s.fld 0x108 31 0 + 1))) ∧
    (s.recoveryMode = true → off < 0x430000 ∨ 0x440000 ≤ off → exec (.registerWrite .host off bytes v) s = .next s) ∧
    (s.gwRole = 0 ∨ s.recoveryMode = true ∨ s.rings = false → exec (.registerWrite .bar2 off bytes v) s = .next s) ∧
    (s.gwRole ≠ 0 → s.recoveryMode = false → s.rings = true → off < 0x40000 →
      exec (.registerWrite .bar2 off bytes v) s = exec (.registerWrite .host (0x80000 + off) bytes v) s) ∧
    (∀ p, s.vfOn p = false ∨ s.rings = false → exec (.registerWrite (.vf p) off bytes v) s = .next s) ∧
    (∀ p, s.vfOn p = true → s.rings = true → off < 0x4000 →
      exec (.registerWrite (.vf p) off bytes v) s = exec (.registerWrite .host (0x80000 + 0x4000 * p + off) bytes v) s) ∧
    (∀ p w, s.vfOn p = true → s.rings = true → w < 240 →
      exec (.registerWrite (.vf p) (0x4000 + 8 * w) 8 v) s = .next (s.writeMsix (some p) w v))) ∧
  (∀ (s : State) (v : BitVec 64), exec (.registerWrite .firmware 0x400038 4 v) s =
      .next { s with halves := Tab.set zeroW s.halves 0x400038 ((v.setWidth 32).setWidth 64) } ∧
    ∃ t : State, exec (.registerWrite .firmware 0x40003C 4 v) s = .next t ∧ Tab.w t.halves 0x400038 = 0 ∧
      (∀ lo : BitVec 32, Tab.w s.halves 0x400038 = lo.setWidth 64 → t.reg 0x400038 = (v.setWidth 32 ++ lo : BitVec 64)) ∧
      (∀ off, off ≠ 0x400038 → t.reg off = s.reg off) ∧ t = { s with regs := t.regs, halves := t.halves }) ∧
  (∀ (s : State) (u : CoreId) (n key : Nat) (v : BitVec 64), s.key u = some key → n < 64 →
    ((s.coreAt key).hasBake = true ∨ n = 63 →
      exec (.registerWrite .firmware (0x1200000 + 0x180000 * u.die + 0x20000 * u.cluster + 0x2000 * u.slot + 8 * n) 8 v) s = .next s) ∧
    ((s.coreAt key).hasBake = false → n ≠ 63 →
      exec (.registerWrite .firmware (0x1200000 + 0x180000 * u.die + 0x20000 * u.cluster + 0x2000 * u.slot + 8 * n) 8 v) s =
        .next (s.setCoreAt key ((s.coreAt key).setReg (8 * n) v)))) ∧
  (∀ (s : State) (p : Nat) (v : BitVec 64) (cred : Nat),
    cred = ((List.range 16).map (fun q => if q = p then (v.extractLsb' 40 8).toNat else s.fld (partOff q 0) 47 40)).sum →
    (16 ≤ p → exec (.partitionDefine p v) s = .next s) ∧
    (p < 16 → 32 < cred → exec (.partitionDefine p v) s = .next s) ∧
    (p < 16 → cred ≤ 32 → ∃ t : State, exec (.partitionDefine p v) s = .next t ∧ t = { s with regs := t.regs } ∧
      (∀ b, b < 64 → (b < 21 ∨ (40 ≤ b ∧ b < 58) ∨ 62 ≤ b) → (t.reg (partOff p 0)).getLsbD b = v.getLsbD b) ∧
      (∀ off, off ≠ partOff p 0 → (∀ w, w < 8 → off ≠ chainOff p w) → t.reg off = s.reg off) ∧
      (s.fld (partOff p 0) 63 63 = 0 → v.getLsbD 63 = true → s.fld 0x100 63 62 ≠ 0 →
        t.reg (chainOff p 0) = 0 ∧ t.reg (chainOff p 7) = BitVec.ofNat 64 s.tally ∧
          t.reg (chainOff p 1) = BitVec.ofNat 64 (natLE (slice (sha384 (genesis p s.tally)) 0 8))) ∧
      (s.fld (partOff p 0) 63 63 = 1 ∨ v.getLsbD 63 = false ∨ s.fld 0x100 63 62 = 0 →
        ∀ w, t.reg (chainOff p w) = s.reg (chainOff p w))))) ∧
  (∀ (s : State) (u : CoreId) (v : BitVec 64) (key : Nat) (c : Core), s.key u = some key → c = s.coreAt key →
    (c.hasBake = true → exec (.zeroise u v) s = .next s) ∧
    (c.hasBake = false → v.getLsbD 63 = false → ∃ c' : Core, exec (.zeroise u v) s = .next (s.setCoreAt key c') ∧
      fld (c'.reg 0x298) 3 0 = (v.setWidth 4).toNat ∧ (∀ off, off ≠ 0x298 → c'.reg off = c.reg off) ∧ c'.mem = c.mem ∧
      c' = { c with regs := c'.regs }) ∧
    (c.hasBake = false → v.getLsbD 63 = true → ∃ (c' : Core) (t : State), exec (.zeroise u v) s = .next t ∧
      t = { s with cores := (s.setCoreAt key c').cores, slots := t.slots, srcBufs := t.srcBufs } ∧ c'.mem = [] ∧ c'.ecc = [] ∧
      (∀ n, n < 16 → c'.sreg n = 0) ∧ (∀ n, n < 63 → c'.p n = 0) ∧ c'.p 63 = c.p 63 ∧ (∀ k, k < 32 → c'.ktV k = false) ∧
      (∀ q, q < 48 → c'.qkind q = 0) ∧ fld (c'.reg 0x298) 3 0 = (v.setWidth 4).toNat ∧ c'.zeroUntil = s.now + 128 ∧
      c'.seq = c.seq))

/-! ### The audit engine and the debug port -/

/-- KEY_RECORD_FORM (R432, R433) forms the record from the state and refuses one that the key area cannot hold; else the record's
digest and place stand in AUD.RKD and the entry is declared. HEAD_SIGN starts a signing on the active gateway, and HEAD_SIGN_COMPLETE logs the signed head
(R439, R440). A snapshot is armed for a tally still to come, and late otherwise; in the first die cycle of its tally's tick every counter's count
stands in its snapshot register (R448). -/
def Obligations.TheAuditEngineRecords : Prop :=
  (∀ (s : State) (e : Nat) (key : KeyInput) (rec : List (BitVec 8)) (decl : BatchDecl) (ka used : Nat),
    ka = 0x445400 + 0x10 * s.ltPart e → used = s.fld (ka + 8) 31 0 → rec = s.keyRecord e key →
    (256 ≤ e → exec (.keyRecordForm e key decl) s = .next s) ∧
    (e < 256 → s.fld (ka + 8) 63 32 * 2 ^ 20 < used + roundUp rec.length 64 →
      exec (.keyRecordForm e key decl) s = .next s.mailEvent) ∧
    (e < 256 → used + roundUp rec.length 64 ≤ s.fld (ka + 8) 63 32 * 2 ^ 20 → ∃ t : State,
      exec (.keyRecordForm e key decl) s = .next t ∧
      (∀ i, i < 6 → t.reg (0x441000 + 0x40 * e + 8 * i) = BitVec.ofNat 64 (natLE (slice (sha384 rec) (8 * i) 8))) ∧
      t.reg (0x441030 + 0x40 * e) = BitVec.ofNat 64 used ∧ t.decl e = some decl ∧
      (∀ off, off ≠ ka + 8 → (∀ i, i < 7 → off ≠ 0x441000 + 0x40 * e + 8 * i) → t.reg off = s.reg off) ∧
      t = { told s t with regs := t.regs, gate := t.gate, dram := t.dram, raised := t.raised })) ∧
  (∀ (s : State) (p : Nat), (16 ≤ p → exec (.headSign p) s = .next s) ∧
    (p < 16 → s.gwActive = false → exec (.headSign p) s = .next s) ∧
    (p < 16 → s.gwActive = true → exec (.headSign p) s = .next { s with audit := { s.audit with signs := s.audit.signs ++
      [⟨p, (s.reg (chainOff p 0)).toNat, s.tally, s.getDigest (chainOff p 1)⟩] } })) ∧
  (∀ s : State, (s.audit.signs = [] ∨ s.mcReady 0 = false → exec .headSignComplete s = .next s) ∧
    (∀ g rest w, s.audit.signs = g :: rest → s.mcReady 0 = true → w = s.fld 0x445800 31 0 → ∃ t : State,
      exec .headSignComplete s = .next t ∧ t.fld 0x445800 31 0 = (w + 1) % 2 ^ 32 ∧
      (∀ i, i < 12 → t.reg (0x448000 + 0x100 * (w % 128) + 8 * i) =
        BitVec.ofNat 64 (natLE (slice (headBody s.me g) (8 * i) 8))) ∧
      t.audit = { s.audit with signs := rest, signed := s.audit.signed + 1 } ∧
      (∀ off, off ≠ 0x445800 → (off < 0x448000 + 0x100 * (w % 128) ∨ 0x448100 + 0x100 * (w % 128) ≤ off) → t.reg off = s.reg off) ∧
      (s.masked none 0 = false → t.hostOut = s.hostOut ++ [.msix none 0]) ∧
      t = { signalled s t with regs := t.regs, audit := t.audit, evs := s.evs ++ [⟨none, none, ⟨0x39, g.part, 1⟩⟩] })) ∧
  (∀ (s : State) (v : BitVec 64), ∃ t : State, exec (.snapshotArm v) s = .next t ∧ t = { s with regs := t.regs } ∧
    (∀ off, off ≠ 0x440008 → t.reg off = s.reg off) ∧
    t.fld 0x440008 63 63 = (if v.getLsbD 63 = true ∧ s.tally < (s.reg 0x440000).toNat then 1 else 0) ∧
    (v.getLsbD 63 = true → (s.reg 0x440000).toNat ≤ s.tally → t.fld 0x440008 62 62 = 1)) ∧
  (∀ s : State, (s.fld 0x440008 63 63 = 0 ∨ s.tally ≠ (s.reg 0x440000).toNat ∨ s.now ≠ s.tickNow →
      exec .snapshot s = .next s) ∧
    (s.fld 0x440008 63 63 = 1 → (s.reg 0x440000).toNat = s.tally → s.now = s.tickNow → ∃ t : State, exec .snapshot s = .next t ∧
      t.fld 0x440008 63 63 = 0 ∧ t.fld 0x440008 61 61 = 1 ∧
      (∀ i, i < 32 → t.reg (0x3100 + 8 * i) = BitVec.ofNat 64 (s.fld (0x3000 + 8 * i) 47 0)) ∧
      (∀ d i, d < 4 → i < 32 →
        t.reg (cdOff d (0x4100 + 8 * i)) = BitVec.ofNat 64 (s.fld (cdOff d (0x4000 + 8 * i)) 47 0)) ∧
      (∀ key i, (∃ c, (key, c) ∈ s.cores) → i < 8 →
        (t.coreAt key).reg (0x1840 + 8 * i) = BitVec.ofNat 64 (fld ((s.coreAt key).reg (0x1800 + 8 * i)) 47 0)) ∧
      (∀ key, (t.coreAt key).mem = (s.coreAt key).mem) ∧ t = { s with regs := t.regs, cores := t.cores }))

/-- The debug port (R443-R445, R461): BYPASS, IDCODE and DBG_CHALLENGE are open; a boundary-scan instruction needs scope bit 0
or recovery mode, a debug access the bit of what it names, and a locked one behaves as BYPASS and is counted. A token that
is not good, or comes while MC0 restarts, is counted and grants nothing; a good one grants its scope, and the other modules are
told (R445); either way the
challenge is used up. TRST_N low, once its filter accepts it (R339), resets the port. -/
def Obligations.TheDebugPortIsLocked : Prop :=
  ∀ s : State,
    exec .bypass s = .next { s with audit := { s.audit with jtag := .bypass, tdo := [0] } } ∧
    exec .idcode s = .next { s with freeCtr := s.freeCtr + 1, audit := { s.audit with
      jtag := .idcode, tdo := bytesLE (Config.free s.freeCtr).toNat 4 } } ∧
    exec .dbgChallenge s = .next { s with audit := { s.audit with
      jtag := .dbgChallenge, tdo := bytesLE (Config.challenge s.audit.drawn).toNat 16 } } ∧
    (∀ rest, rest = s.cad.inputs.filter (fun x => x.1 != 15) →
      (s.fld 0x400878 4 0 = 0 → exec (.trstN true) s = .next { s with cad := { s.cad with inputs := rest } } ∧
        exec (.trstN false) s = .next { s with
          cad := { s.cad with inputs := rest }, audit := { s.audit with jtag := .idcode, tdo := [] } }) ∧
      (∀ level, s.fld 0x400878 4 0 ≠ 0 → exec (.trstN level) s =
        .next { s with cad := { s.cad with inputs := rest ++ [(15, level, s.fld 0x400878 4 0)] } })) ∧
    (∀ i, (i = .extest ∨ i = .extestPulse ∨ i = .extestTrain ∨ ∃ bits, i = .samplePreload bits) →
      s.recoveryMode = false → s.inScope 0 = false → exec i s = .next (s.jtagDeny)) ∧
    (s.jtagDeny.fld 0x440010 31 0 = (s.fld 0x440010 31 0 + 1) % 2 ^ 32 ∧ s.jtagDeny.audit.jtag = .bypass ∧
      (∀ off, off ≠ 0x440010 → s.jtagDeny.reg off = s.reg off) ∧ s.jtagDeny = { s with regs := s.jtagDeny.regs, audit := s.jtagDeny.audit }) ∧
    (s.recoveryMode = true ∨ s.inScope 0 = true →
      exec .extest s = .next { s with audit := { s.audit with jtag := .extest, tdo := [] } } ∧
      exec .extestPulse s = .next { s with audit := { s.audit with jtag := .extestPulse, tdo := [] } } ∧
      exec .extestTrain s = .next { s with audit := { s.audit with jtag := .extestTrain, tdo := [] } } ∧
      ∀ bits, ∃ t : State, exec (.samplePreload bits) s = .next t ∧ t.audit.boundary = bits ∧ t.audit.jtag = .sample ∧
        t.audit.tdo.length = (bits.length + 7) / 8 ∧ t = { s with audit := t.audit, freeCtr := t.freeCtr }) ∧
    (∀ token ok, ok = (s.mcReady 0 && s.tokenOk token) → ∃ t : State, exec (.dbgUnlock token) s = .next t ∧
      t.audit.drawn = s.audit.drawn + 1 ∧ t.fld 0x440010 63 63 = (if ok then 1 else s.fld 0x440010 63 63) ∧
      t.fld 0x440010 62 59 = (if ok then nor (s.fld 0x440010 62 59) (natLE (slice token 4 1)) else s.fld 0x440010 62 59) ∧
      t.fld 0x440010 47 32 = (if ok then s.fld 0x440010 47 32 else (s.fld 0x440010 47 32 + 1) % 2 ^ 16) ∧
      t.fld 0x440010 31 0 = s.fld 0x440010 31 0 ∧ t = { told s t with regs := t.regs, audit := t.audit } ∧
      (if ok then ∀ m, m < s.nmod → s.answers m = false → ∃ x, x ∈ t.fab.sysOut ∧ x.2.dstmod = m ∧ x.2.body = [8]
       else t = { s with regs := t.regs, audit := t.audit })) ∧
    (∀ off write bit, bit = (if (coreBlock off).isSome || (clBlock off).isSome then 1
        else if 0x430000 ≤ off ∧ off < 0x440000 then 2 else 3) →
      (s.inScope bit = false → exec (.debugStateAccess off write) s = .next s.jtagDeny) ∧
      (s.inScope bit = true → write = none → exec (.debugStateAccess off write) s = .next { s with audit := { s.audit with
        jtag := .access, tdo := (List.range 8).map (fun i => s.ctlByte (off + i)) } }) ∧
      (∀ v, s.inScope bit = true → write = some v → ∃ t : State, exec (.registerWrite .firmware off 8 v) s = .next t ∧
        exec (.debugStateAccess off write) s = .next { t with audit := { t.audit with jtag := .access, tdo := [] } }))

/-! ### Numbers and maps -/

/-- The element codes of BQ2, BQ4 and BQ8 are two's complement and have the values of R50-R52, the most negative code included,
and the quantiser emits only values from -1, -7 or -127 up to +1, +7 or +127, each under its own code. -/
def Obligations.BlockCodesHaveTheirValues : Prop :=
  (∀ (u : Bool) (n : Nat), (n < 4 → BqFmt.codeVal .bq2 u n = if n < 2 then (n : Int) else (n : Int) - 4) ∧
    (n < 16 → BqFmt.codeVal .bq4 u n = if n < 8 then (n : Int) else (n : Int) - 16) ∧
    (n < 256 → BqFmt.codeVal .bq8 u n = if n < 128 then (n : Int) else (n : Int) - 256)) ∧
  (∀ (f : BqFmt) (q : Int) (u : Bool) (e : Nat) (x : Dy), (f = .bq2 ∧ q = 1 ∨ f = .bq4 ∧ q = 7 ∨ f = .bq8 ∧ q = 127) →
    -q ≤ (quantVal f u e x).1 ∧ (quantVal f u e x).1 ≤ q ∧
      f.codeVal u (quantCode f u e x) = if e = 0 then 0 else (quantVal f u e x).1)

/-- The physical map of a cluster (R37): the physical slots that are not fused off carry the logical slots in ascending order,
and with SUBST = 1 the spare at slot 16 carries that of PFAIL; a logical slot beyond them has no core. -/
def Obligations.ThePhysicalMapFollowsTheFuses : Prop :=
  ∀ (w : Word) (below : Nat → Nat), (∀ p, below p = ((List.range p).filter (fun i => !w.getLsbD (32 + i))).length) →
    (∀ p, p < 16 → w.getLsbD (32 + p) = false →
      physOf w (below p) = some (if w.getLsbD 23 = true ∧ p = (w.setWidth 5).toNat then 16 else p)) ∧
    (∀ l, below 16 ≤ l → physOf w l = none)

/-- A transfer to or from queue end Qn of a group sends element j to, or takes it from, member member_of(j) of R32: with core
members, element j is at member j mod n, floor(j / GRAN) mod n or floor(floor(j / ROWLEN) / GRAN) mod n by SPLIT, and it is
numbered there by how many earlier elements went to the same member. -/
def Obligations.ElementsInterleaveAcrossMembers : Prop :=
  ∀ (s : State) (i j n m : Nat) (u : UnitId), i < 4096 → s.gdV i = true → s.gdMcount i = n → 1 ≤ n → 1 ≤ s.gdGran i → 1 ≤ s.gdRowlen i →
    m = (match s.gdSplit i with
      | 0 => j % n
      | 1 => j / s.gdGran i % n
      | _ => j / s.gdRowlen i / s.gdGran i % n) →
    (s.gdMembers i)[m]? = some u → (∃ a d k l, UnitForm.ofId u = .core a d k l) →
    (s.splitTo 6 (UnitForm.toId (.group i)) j).1 = u ∧
    (s.splitTo 6 (UnitForm.toId (.group i)) j).2 =
      ((List.range j).filter (fun x => (memberOf (s.gdSplit i) (s.gdGran i) (s.gdRowlen i) n x).1 == m)).length

/-- The slot tables after reset (R249), in force until a load: in every frame of every stack the slots with k mod 16 = 15 are
fixed, those with k mod 128 = 0-14, and in variant 1 also 16-30, refresh, and every other slot is the pool's. -/
def Obligations.SlotTablesAfterReset : Prop :=
  ∀ m v n k : Nat, m < 8 → v < 2 → k = n % 1024 →
    State.reset.slotEntry m v n / 64 =
      if k % 16 = 15 then 3 else if k % 128 ≤ 14 ∨ v = 1 ∧ 16 ≤ k % 128 ∧ k % 128 ≤ 30 then 2 else 1

/-! ### The whole machine -/

/-- Reset: nothing waits, the tally is 0, no core runs a bake, no memory lists a byte, every stream record is free, and the
registers hold the values that their tables give. On an empty queue a die cycle of the tick passes, if one is left (the
model's choice, log 5). -/
def Obligations.ResetAndAnEmptyQueue : Prop :=
  (State.reset.pending = [] ∧ State.reset.tally = 0 ∧ State.reset.hostOut = [] ∧ StreamsBalance State.reset ∧
    State.reset.fld 0x110 20 0 = 262144 ∧ State.reset.reg 0x430000 = 0xC000000000000000#64 ∧
    State.reset.reg 0x410010 = 0 ∧ State.reset.fld 0x1400 39 36 = 2 ∧ State.reset.fld 0x1000 57 48 = 1 ∧
    State.reset.reg 0x480100 = 0x5550#64 ∧ (∀ r, r < 24 → State.reset.phys r = r ∧ State.reset.portState r = 0 ∧
      State.reset.portEn r = false ∧ State.reset.fld (fpOff r 1) 31 0 = 0x76543210) ∧
    (∀ r k, r < 24 → k < 512 → fsKind (State.reset.fslot 0 r k) = if k % 64 = 63 then 3 else 0) ∧
    (∀ key, (State.reset.coreAt key).seq.run = false ∧ (State.reset.coreAt key).mem = [] ∧
      (∀ n, n < 64 → (State.reset.coreAt key).p n = 0) ∧ (∀ n, n < 16 → (State.reset.coreAt key).sreg n = 0) ∧
      (∀ q, q < 48 → (State.reset.coreAt key).qkind q = 0)) ∧
    (∀ m, (State.reset.dramOf m).mem = []) ∧ (∀ d i, (State.reset.obj d i).val = 0) ∧
    (∀ i, i < 4096 → State.reset.gdV i = false)) ∧
  (∀ s : State, s.pending = [] → ∃ t, step s = .next t ∧ t.pending = [] ∧ t.tally = s.tally ∧
    (s.left = 0 → t = s) ∧ (s.left ≠ 0 → t.now = s.now + 1 ∧ t.left + 1 = s.left))

/-- Every command of the block answers a next state, in every state; one that names a unit the block does not have does so too, and
has no effect (log 60). No command faults or is refused. -/
def Obligations.EveryCommandAnswersOrNamesNoUnit : Prop :=
  ∀ (i : Instr) (s : State), isNext (exec i s) = true

/-- The effect of a command leaves the queue of commands alone, whatever the command and the state. -/
def Obligations.CommandsKeepTheQueue : Prop :=
  ∀ (i : Instr) (s t : State), exec i s = .next t → t.pending = s.pending

/-- The balance of R362, FREE + OCC + RET = 262144, holds after every step from a state in which it holds. -/
def Obligations.StepsKeepTheStreamBalance : Prop :=
  ∀ s t : State, StreamsBalance s → step s = .next t → StreamsBalance t
end

