-- ==== Sys2Proof/Laws/Tab.lean ====
section
/-! SUPPORT. Laws of sparse tables and memories: reading after a write, and the canonical form that every write keeps. -/
namespace Sys2Proof.Machine

variable {α : Type}

@[simp] theorem Tab.find_nil (k : Nat) : Tab.find ([] : Tab α) k = none := rfl

theorem Tab.find_put_same (t : Tab α) (k : Nat) (v : α) : Tab.find (Tab.put k v t) k = some v := by
  induction t with
  | nil => simp [Tab.put, Tab.find]
  | cons e t ih =>
    obtain ⟨a, x⟩ := e
    unfold Tab.put
    split
    · simp [Tab.find]
    · split
      · simp [Tab.find]
      · simp [Tab.find, *]

theorem Tab.find_put_other (t : Tab α) {j k : Nat} (v : α) (h : j ≠ k) :
    Tab.find (Tab.put k v t) j = Tab.find t j := by
  induction t with
  | nil => simp [Tab.put, Tab.find, h]
  | cons e t ih =>
    obtain ⟨a, x⟩ := e
    unfold Tab.put
    split
    · simp [Tab.find, h]
    · split
      · subst a; simp [Tab.find, h]
      · simp [Tab.find, ih]

theorem Tab.find_erase_same (t : Tab α) (k : Nat) : Tab.find (Tab.erase k t) k = none := by
  induction t with
  | nil => rfl
  | cons e t ih =>
    obtain ⟨a, x⟩ := e
    unfold Tab.erase
    split
    · exact ih
    · simp [Tab.find, *]

theorem Tab.find_erase_other (t : Tab α) {j k : Nat} (h : j ≠ k) : Tab.find (Tab.erase k t) j = Tab.find t j := by
  induction t with
  | nil => rfl
  | cons e t ih =>
    obtain ⟨a, x⟩ := e
    unfold Tab.erase
    split
    · subst a; simp [Tab.find, h, ih]
    · simp [Tab.find, ih]

/-- A key reads as what was last set there. -/
@[simp] theorem Tab.get_set_same [DecidableEq α] (d : Nat → α) (t : Tab α) (k : Nat) (v : α) :
    Tab.get d (Tab.set d t k v) k = v := by
  unfold Tab.get Tab.set
  split
  · simp [Tab.find_erase_same, *]
  · simp [Tab.find_put_same]

/-- Setting one key leaves every other as it was. -/
theorem Tab.get_set_other [DecidableEq α] (d : Nat → α) (t : Tab α) {j k : Nat} (v : α) (h : j ≠ k) :
    Tab.get d (Tab.set d t k v) j = Tab.get d t j := by
  unfold Tab.get Tab.set
  split
  · rw [Tab.find_erase_other t h]
  · rw [Tab.find_put_other t v h]

theorem Tab.rising_mono {b c : Nat} (h : b ≤ c) : ∀ {t : Tab α}, Tab.rising c t = true → Tab.rising b t = true
  | [], _ => rfl
  | (a, _) :: t, ht => by
    simp only [Tab.rising, Bool.and_eq_true, decide_eq_true_eq] at ht ⊢
    exact ⟨le_trans h ht.1, ht.2⟩

theorem Tab.rising_put {b k : Nat} (v : α) (h : b ≤ k) :
    ∀ {t : Tab α}, Tab.rising b t = true → Tab.rising b (Tab.put k v t) = true
  | [], _ => by simp [Tab.put, Tab.rising, h]
  | (a, x) :: t, ht => by
    simp only [Tab.rising, Bool.and_eq_true, decide_eq_true_eq] at ht
    unfold Tab.put
    split
    · simp only [Tab.rising, Bool.and_eq_true, decide_eq_true_eq]
      exact ⟨h, by omega, ht.2⟩
    · split
      · subst a; simp only [Tab.rising, Bool.and_eq_true, decide_eq_true_eq]; exact ⟨h, ht.2⟩
      · simp only [Tab.rising, Bool.and_eq_true, decide_eq_true_eq]
        exact ⟨ht.1, Tab.rising_put v (by omega) ht.2⟩

theorem Tab.rising_erase (k : Nat) : ∀ {b : Nat} {t : Tab α}, Tab.rising b t = true → Tab.rising b (Tab.erase k t) = true
  | _, [], _ => rfl
  | b, (a, x) :: t, ht => by
    simp only [Tab.rising, Bool.and_eq_true, decide_eq_true_eq] at ht
    unfold Tab.erase
    split
    · exact Tab.rising_erase k (Tab.rising_mono (by omega) ht.2)
    · simp only [Tab.rising, Bool.and_eq_true, decide_eq_true_eq]
      exact ⟨ht.1, Tab.rising_erase k ht.2⟩

theorem Tab.noDefault_put [DecidableEq α] (d : Nat → α) {k : Nat} {v : α} (h : v ≠ d k) :
    ∀ {t : Tab α}, Tab.noDefault d t = true → Tab.noDefault d (Tab.put k v t) = true
  | [], _ => by simp [Tab.put, Tab.noDefault, h]
  | (a, x) :: t, ht => by
    simp only [Tab.noDefault, Bool.and_eq_true, decide_eq_true_eq] at ht
    unfold Tab.put
    split
    · simp [Tab.noDefault, h, ht.1, ht.2]
    · split
      · subst a; simp [Tab.noDefault, h, ht.2]
      · simp only [Tab.noDefault, Bool.and_eq_true, decide_eq_true_eq]
        exact ⟨ht.1, Tab.noDefault_put d h ht.2⟩

theorem Tab.noDefault_erase [DecidableEq α] (d : Nat → α) (k : Nat) :
    ∀ {t : Tab α}, Tab.noDefault d t = true → Tab.noDefault d (Tab.erase k t) = true
  | [], _ => rfl
  | (a, x) :: t, ht => by
    simp only [Tab.noDefault, Bool.and_eq_true, decide_eq_true_eq] at ht
    unfold Tab.erase
    split
    · exact Tab.noDefault_erase d k ht.2
    · simp only [Tab.noDefault, Bool.and_eq_true, decide_eq_true_eq]
      exact ⟨ht.1, Tab.noDefault_erase d k ht.2⟩

/-- Setting a key keeps the canonical form. -/
theorem Tab.wf_set [DecidableEq α] (d : Nat → α) {t : Tab α} (k : Nat) (v : α) (h : Tab.wf d t = true) :
    Tab.wf d (Tab.set d t k v) = true := by
  simp only [Tab.wf, Bool.and_eq_true] at h ⊢
  unfold Tab.set
  split
  · exact ⟨Tab.rising_erase k h.1, Tab.noDefault_erase d k h.2⟩
  · exact ⟨Tab.rising_put v (Nat.zero_le _) h.1, Tab.noDefault_put d ‹_› h.2⟩

@[simp] theorem Tab.wf_nil [DecidableEq α] (d : Nat → α) : Tab.wf d ([] : Tab α) = true := rfl

/-! ### Memories -/

@[simp] theorem Memory.byte_setByte_same (m : Memory) (a : Nat) (b : Byte) : (m.setByte a b).byte a = b := by
  simp [Memory.byte, Memory.setByte]

theorem Memory.byte_setByte_other (m : Memory) {x a : Nat} (b : Byte) (h : x ≠ a) : (m.setByte a b).byte x = m.byte x :=
  Tab.get_set_other _ m b h

/-- A byte written keeps the canonical form of a memory. -/
theorem Memory.wf_setByte {m : Memory} (a : Nat) (b : Byte) (h : m.wf = true) : (m.setByte a b).wf = true :=
  Tab.wf_set _ a b h

/-- Bytes written one after the other keep it. -/
theorem Memory.wf_setBytes : ∀ (bs : List Byte) {m : Memory} (a : Nat), m.wf = true → (Memory.setBytes m a bs).wf = true
  | [], _, _, h => h
  | b :: bs, _, a, h => Memory.wf_setBytes bs (a + 1) (Memory.wf_setByte a b h)

/-- Writing n bytes leaves every byte outside them as it was. -/
theorem Memory.byte_setBytes_outside : ∀ (bs : List Byte) (m : Memory) (a x : Nat),
    (x < a ∨ a + bs.length ≤ x) → (Memory.setBytes m a bs).byte x = m.byte x
  | [], _, _, _, _ => rfl
  | b :: bs, m, a, x, h => by
    simp only [List.length_cons] at h
    rw [Memory.setBytes, Memory.byte_setBytes_outside bs _ (a + 1) x (by omega),
      Memory.byte_setByte_other m b (by omega)]

/-- Each byte written reads back. -/
theorem Memory.byte_setBytes_at : ∀ (bs : List Byte) (m : Memory) (a i : Nat) (v : Byte), bs[i]? = some v →
    (Memory.setBytes m a bs).byte (a + i) = v
  | b :: bs, m, a, 0, v, h => by
    simp only [List.getElem?_cons_zero, Option.some.injEq] at h
    rw [Memory.setBytes, Memory.byte_setBytes_outside bs _ (a + 1) (a + 0) (by omega), Nat.add_zero, Memory.byte_setByte_same, h]
  | b :: bs, m, a, i + 1, v, h => by
    simp only [List.getElem?_cons_succ] at h
    rw [Memory.setBytes, show a + (i + 1) = a + 1 + i by omega]
    exact Memory.byte_setBytes_at bs _ (a + 1) i v h

/-- n bytes read are as many. -/
@[simp] theorem Memory.bytes_length (m : Memory) : ∀ (n a : Nat), (m.bytes a n).length = n
  | 0, _ => rfl
  | n + 1, a => by simp [Memory.bytes, Memory.bytes_length m n (a + 1)]

end Sys2Proof.Machine
end

