-- ==== Sys2Proof/Laws/State.lean ====
section
/-! SUPPORT. What each update of a state or a core leaves alone, one lemma for each field, and what a read gives after a
write. -/
namespace Sys2Proof.Machine

/-! ### Registers of the module and cores -/

@[simp] theorem State.setReg_pending (s : State) (o : Nat) (w : Word) : (s.setReg o w).pending = s.pending := rfl
@[simp] theorem State.setReg_freeCtr (s : State) (o : Nat) (w : Word) : (s.setReg o w).freeCtr = s.freeCtr := rfl
@[simp] theorem State.setReg_now (s : State) (o : Nat) (w : Word) : (s.setReg o w).now = s.now := rfl
@[simp] theorem State.setReg_left (s : State) (o : Nat) (w : Word) : (s.setReg o w).left = s.left := rfl
@[simp] theorem State.setReg_tally (s : State) (o : Nat) (w : Word) : (s.setReg o w).tally = s.tally := rfl
@[simp] theorem State.setReg_dcy (s : State) (o : Nat) (w : Word) : (s.setReg o w).dcy = s.dcy := rfl
@[simp] theorem State.setReg_tickLen (s : State) (o : Nat) (w : Word) : (s.setReg o w).tickLen = s.tickLen := rfl
@[simp] theorem State.setReg_halves (s : State) (o : Nat) (w : Word) : (s.setReg o w).halves = s.halves := rfl
@[simp] theorem State.setReg_latched (s : State) (o : Nat) (w : Word) : (s.setReg o w).latched = s.latched := rfl
@[simp] theorem State.setReg_cores (s : State) (o : Nat) (w : Word) : (s.setReg o w).cores = s.cores := rfl
@[simp] theorem State.setReg_flights (s : State) (o : Nat) (w : Word) : (s.setReg o w).flights = s.flights := rfl
@[simp] theorem State.setReg_credits (s : State) (o : Nat) (w : Word) : (s.setReg o w).credits = s.credits := rfl
@[simp] theorem State.setReg_slots (s : State) (o : Nat) (w : Word) : (s.setReg o w).slots = s.slots := rfl
@[simp] theorem State.setReg_srcBufs (s : State) (o : Nat) (w : Word) : (s.setReg o w).srcBufs = s.srcBufs := rfl
@[simp] theorem State.setReg_takeAt (s : State) (o : Nat) (w : Word) : (s.setReg o w).takeAt = s.takeAt := rfl
@[simp] theorem State.setReg_giveAt (s : State) (o : Nat) (w : Word) : (s.setReg o w).giveAt = s.giveAt := rfl
@[simp] theorem State.setReg_sync (s : State) (o : Nat) (w : Word) : (s.setReg o w).sync = s.sync := rfl
@[simp] theorem State.setReg_syncMsgs (s : State) (o : Nat) (w : Word) : (s.setReg o w).syncMsgs = s.syncMsgs := rfl
@[simp] theorem State.setReg_barGroups (s : State) (o : Nat) (w : Word) : (s.setReg o w).barGroups = s.barGroups := rfl
@[simp] theorem State.setReg_xferSeq (s : State) (o : Nat) (w : Word) : (s.setReg o w).xferSeq = s.xferSeq := rfl
@[simp] theorem State.setReg_opSeq (s : State) (o : Nat) (w : Word) : (s.setReg o w).opSeq = s.opSeq := rfl
@[simp] theorem State.setReg_ops (s : State) (o : Nat) (w : Word) : (s.setReg o w).ops = s.ops := rfl
@[simp] theorem State.setReg_sigs (s : State) (o : Nat) (w : Word) : (s.setReg o w).sigs = s.sigs := rfl
@[simp] theorem State.setReg_tags (s : State) (o : Nat) (w : Word) : (s.setReg o w).tags = s.tags := rfl
@[simp] theorem State.setReg_dram (s : State) (o : Nat) (w : Word) : (s.setReg o w).dram = s.dram := rfl
@[simp] theorem State.setReg_remote (s : State) (o : Nat) (w : Word) : (s.setReg o w).remote = s.remote := rfl
@[simp] theorem State.setReg_remSeq (s : State) (o : Nat) (w : Word) : (s.setReg o w).remSeq = s.remSeq := rfl
@[simp] theorem State.setReg_raised (s : State) (o : Nat) (w : Word) : (s.setReg o w).raised = s.raised := rfl
@[simp] theorem State.setReg_evs (s : State) (o : Nat) (w : Word) : (s.setReg o w).evs = s.evs := rfl
@[simp] theorem State.setReg_tx (s : State) (o : Nat) (w : Word) : (s.setReg o w).tx = s.tx := rfl
@[simp] theorem State.setReg_fills (s : State) (o : Nat) (w : Word) : (s.setReg o w).fills = s.fills := rfl
@[simp] theorem State.setReg_rot (s : State) (o : Nat) (w : Word) : (s.setReg o w).rot = s.rot := rfl
@[simp] theorem State.setReg_fab (s : State) (o : Nat) (w : Word) : (s.setReg o w).fab = s.fab := rfl
@[simp] theorem State.setReg_hostOut (s : State) (o : Nat) (w : Word) : (s.setReg o w).hostOut = s.hostOut := rfl
@[simp] theorem State.setReg_hubQ (s : State) (o : Nat) (w : Word) : (s.setReg o w).hubQ = s.hubQ := rfl
@[simp] theorem State.setReg_aborts (s : State) (o : Nat) (w : Word) : (s.setReg o w).aborts = s.aborts := rfl
@[simp] theorem State.setReg_rcnt (s : State) (o : Nat) (w : Word) : (s.setReg o w).rcnt = s.rcnt := rfl
@[simp] theorem State.setReg_coreFaults (s : State) (o : Nat) (w : Word) : (s.setReg o w).coreFaults = s.coreFaults := rfl
@[simp] theorem State.setReg_rewritten (s : State) (o : Nat) (w : Word) : (s.setReg o w).rewritten = s.rewritten := rfl
@[simp] theorem State.setReg_pairs (s : State) (o : Nat) (w : Word) : (s.setReg o w).pairs = s.pairs := rfl
@[simp] theorem State.setReg_genLog (s : State) (o : Nat) (w : Word) : (s.setReg o w).genLog = s.genLog := rfl
@[simp] theorem State.setReg_launches (s : State) (o : Nat) (w : Word) : (s.setReg o w).launches = s.launches := rfl
@[simp] theorem State.setReg_cad (s : State) (o : Nat) (w : Word) : (s.setReg o w).cad = s.cad := rfl
@[simp] theorem State.setReg_thermTrip (s : State) (o : Nat) (w : Word) : (s.setReg o w).thermTrip = s.thermTrip := rfl
@[simp] theorem State.setReg_gate (s : State) (o : Nat) (w : Word) : (s.setReg o w).gate = s.gate := rfl
@[simp] theorem State.setReg_audit (s : State) (o : Nat) (w : Word) : (s.setReg o w).audit = s.audit := rfl
@[simp] theorem State.setReg_boot (s : State) (o : Nat) (w : Word) : (s.setReg o w).boot = s.boot := rfl
@[simp] theorem State.setReg_ticks (s : State) (o : Nat) (w : Word) : (s.setReg o w).ticks = s.ticks := rfl
@[simp] theorem State.setReg_alts (s : State) (o : Nat) (w : Word) : (s.setReg o w).alts = s.alts := rfl
@[simp] theorem State.setReg_unfit (s : State) (o : Nat) (w : Word) : (s.setReg o w).unfit = s.unfit := rfl
@[simp] theorem State.setFld_pending (s : State) (o a b v : Nat) : (s.setFld o a b v).pending = s.pending := rfl
@[simp] theorem State.setFld_freeCtr (s : State) (o a b v : Nat) : (s.setFld o a b v).freeCtr = s.freeCtr := rfl
@[simp] theorem State.setFld_now (s : State) (o a b v : Nat) : (s.setFld o a b v).now = s.now := rfl
@[simp] theorem State.setFld_left (s : State) (o a b v : Nat) : (s.setFld o a b v).left = s.left := rfl
@[simp] theorem State.setFld_tally (s : State) (o a b v : Nat) : (s.setFld o a b v).tally = s.tally := rfl
@[simp] theorem State.setFld_dcy (s : State) (o a b v : Nat) : (s.setFld o a b v).dcy = s.dcy := rfl
@[simp] theorem State.setFld_tickLen (s : State) (o a b v : Nat) : (s.setFld o a b v).tickLen = s.tickLen := rfl
@[simp] theorem State.setFld_halves (s : State) (o a b v : Nat) : (s.setFld o a b v).halves = s.halves := rfl
@[simp] theorem State.setFld_latched (s : State) (o a b v : Nat) : (s.setFld o a b v).latched = s.latched := rfl
@[simp] theorem State.setFld_cores (s : State) (o a b v : Nat) : (s.setFld o a b v).cores = s.cores := rfl
@[simp] theorem State.setFld_flights (s : State) (o a b v : Nat) : (s.setFld o a b v).flights = s.flights := rfl
@[simp] theorem State.setFld_credits (s : State) (o a b v : Nat) : (s.setFld o a b v).credits = s.credits := rfl
@[simp] theorem State.setFld_slots (s : State) (o a b v : Nat) : (s.setFld o a b v).slots = s.slots := rfl
@[simp] theorem State.setFld_srcBufs (s : State) (o a b v : Nat) : (s.setFld o a b v).srcBufs = s.srcBufs := rfl
@[simp] theorem State.setFld_takeAt (s : State) (o a b v : Nat) : (s.setFld o a b v).takeAt = s.takeAt := rfl
@[simp] theorem State.setFld_giveAt (s : State) (o a b v : Nat) : (s.setFld o a b v).giveAt = s.giveAt := rfl
@[simp] theorem State.setFld_sync (s : State) (o a b v : Nat) : (s.setFld o a b v).sync = s.sync := rfl
@[simp] theorem State.setFld_syncMsgs (s : State) (o a b v : Nat) : (s.setFld o a b v).syncMsgs = s.syncMsgs := rfl
@[simp] theorem State.setFld_barGroups (s : State) (o a b v : Nat) : (s.setFld o a b v).barGroups = s.barGroups := rfl
@[simp] theorem State.setFld_xferSeq (s : State) (o a b v : Nat) : (s.setFld o a b v).xferSeq = s.xferSeq := rfl
@[simp] theorem State.setFld_opSeq (s : State) (o a b v : Nat) : (s.setFld o a b v).opSeq = s.opSeq := rfl
@[simp] theorem State.setFld_ops (s : State) (o a b v : Nat) : (s.setFld o a b v).ops = s.ops := rfl
@[simp] theorem State.setFld_sigs (s : State) (o a b v : Nat) : (s.setFld o a b v).sigs = s.sigs := rfl
@[simp] theorem State.setFld_tags (s : State) (o a b v : Nat) : (s.setFld o a b v).tags = s.tags := rfl
@[simp] theorem State.setFld_dram (s : State) (o a b v : Nat) : (s.setFld o a b v).dram = s.dram := rfl
@[simp] theorem State.setFld_remote (s : State) (o a b v : Nat) : (s.setFld o a b v).remote = s.remote := rfl
@[simp] theorem State.setFld_remSeq (s : State) (o a b v : Nat) : (s.setFld o a b v).remSeq = s.remSeq := rfl
@[simp] theorem State.setFld_raised (s : State) (o a b v : Nat) : (s.setFld o a b v).raised = s.raised := rfl
@[simp] theorem State.setFld_evs (s : State) (o a b v : Nat) : (s.setFld o a b v).evs = s.evs := rfl
@[simp] theorem State.setFld_tx (s : State) (o a b v : Nat) : (s.setFld o a b v).tx = s.tx := rfl
@[simp] theorem State.setFld_fills (s : State) (o a b v : Nat) : (s.setFld o a b v).fills = s.fills := rfl
@[simp] theorem State.setFld_rot (s : State) (o a b v : Nat) : (s.setFld o a b v).rot = s.rot := rfl
@[simp] theorem State.setFld_fab (s : State) (o a b v : Nat) : (s.setFld o a b v).fab = s.fab := rfl
@[simp] theorem State.setFld_hostOut (s : State) (o a b v : Nat) : (s.setFld o a b v).hostOut = s.hostOut := rfl
@[simp] theorem State.setFld_hubQ (s : State) (o a b v : Nat) : (s.setFld o a b v).hubQ = s.hubQ := rfl
@[simp] theorem State.setFld_aborts (s : State) (o a b v : Nat) : (s.setFld o a b v).aborts = s.aborts := rfl
@[simp] theorem State.setFld_rcnt (s : State) (o a b v : Nat) : (s.setFld o a b v).rcnt = s.rcnt := rfl
@[simp] theorem State.setFld_coreFaults (s : State) (o a b v : Nat) : (s.setFld o a b v).coreFaults = s.coreFaults := rfl
@[simp] theorem State.setFld_rewritten (s : State) (o a b v : Nat) : (s.setFld o a b v).rewritten = s.rewritten := rfl
@[simp] theorem State.setFld_pairs (s : State) (o a b v : Nat) : (s.setFld o a b v).pairs = s.pairs := rfl
@[simp] theorem State.setFld_genLog (s : State) (o a b v : Nat) : (s.setFld o a b v).genLog = s.genLog := rfl
@[simp] theorem State.setFld_launches (s : State) (o a b v : Nat) : (s.setFld o a b v).launches = s.launches := rfl
@[simp] theorem State.setFld_cad (s : State) (o a b v : Nat) : (s.setFld o a b v).cad = s.cad := rfl
@[simp] theorem State.setFld_thermTrip (s : State) (o a b v : Nat) : (s.setFld o a b v).thermTrip = s.thermTrip := rfl
@[simp] theorem State.setFld_gate (s : State) (o a b v : Nat) : (s.setFld o a b v).gate = s.gate := rfl
@[simp] theorem State.setFld_audit (s : State) (o a b v : Nat) : (s.setFld o a b v).audit = s.audit := rfl
@[simp] theorem State.setFld_boot (s : State) (o a b v : Nat) : (s.setFld o a b v).boot = s.boot := rfl
@[simp] theorem State.setFld_ticks (s : State) (o a b v : Nat) : (s.setFld o a b v).ticks = s.ticks := rfl
@[simp] theorem State.setFld_alts (s : State) (o a b v : Nat) : (s.setFld o a b v).alts = s.alts := rfl
@[simp] theorem State.setFld_unfit (s : State) (o a b v : Nat) : (s.setFld o a b v).unfit = s.unfit := rfl
@[simp] theorem State.setCoreAt_pending (s : State) (k : Nat) (c : Core) : (s.setCoreAt k c).pending = s.pending := rfl
@[simp] theorem State.setCoreAt_freeCtr (s : State) (k : Nat) (c : Core) : (s.setCoreAt k c).freeCtr = s.freeCtr := rfl
@[simp] theorem State.setCoreAt_now (s : State) (k : Nat) (c : Core) : (s.setCoreAt k c).now = s.now := rfl
@[simp] theorem State.setCoreAt_left (s : State) (k : Nat) (c : Core) : (s.setCoreAt k c).left = s.left := rfl
@[simp] theorem State.setCoreAt_tally (s : State) (k : Nat) (c : Core) : (s.setCoreAt k c).tally = s.tally := rfl
@[simp] theorem State.setCoreAt_dcy (s : State) (k : Nat) (c : Core) : (s.setCoreAt k c).dcy = s.dcy := rfl
@[simp] theorem State.setCoreAt_tickLen (s : State) (k : Nat) (c : Core) : (s.setCoreAt k c).tickLen = s.tickLen := rfl
@[simp] theorem State.setCoreAt_regs (s : State) (k : Nat) (c : Core) : (s.setCoreAt k c).regs = s.regs := rfl
@[simp] theorem State.setCoreAt_halves (s : State) (k : Nat) (c : Core) : (s.setCoreAt k c).halves = s.halves := rfl
@[simp] theorem State.setCoreAt_latched (s : State) (k : Nat) (c : Core) : (s.setCoreAt k c).latched = s.latched := rfl
@[simp] theorem State.setCoreAt_flights (s : State) (k : Nat) (c : Core) : (s.setCoreAt k c).flights = s.flights := rfl
@[simp] theorem State.setCoreAt_credits (s : State) (k : Nat) (c : Core) : (s.setCoreAt k c).credits = s.credits := rfl
@[simp] theorem State.setCoreAt_slots (s : State) (k : Nat) (c : Core) : (s.setCoreAt k c).slots = s.slots := rfl
@[simp] theorem State.setCoreAt_srcBufs (s : State) (k : Nat) (c : Core) : (s.setCoreAt k c).srcBufs = s.srcBufs := rfl
@[simp] theorem State.setCoreAt_takeAt (s : State) (k : Nat) (c : Core) : (s.setCoreAt k c).takeAt = s.takeAt := rfl
@[simp] theorem State.setCoreAt_giveAt (s : State) (k : Nat) (c : Core) : (s.setCoreAt k c).giveAt = s.giveAt := rfl
@[simp] theorem State.setCoreAt_sync (s : State) (k : Nat) (c : Core) : (s.setCoreAt k c).sync = s.sync := rfl
@[simp] theorem State.setCoreAt_syncMsgs (s : State) (k : Nat) (c : Core) : (s.setCoreAt k c).syncMsgs = s.syncMsgs := rfl
@[simp] theorem State.setCoreAt_barGroups (s : State) (k : Nat) (c : Core) : (s.setCoreAt k c).barGroups = s.barGroups := rfl
@[simp] theorem State.setCoreAt_xferSeq (s : State) (k : Nat) (c : Core) : (s.setCoreAt k c).xferSeq = s.xferSeq := rfl
@[simp] theorem State.setCoreAt_opSeq (s : State) (k : Nat) (c : Core) : (s.setCoreAt k c).opSeq = s.opSeq := rfl
@[simp] theorem State.setCoreAt_ops (s : State) (k : Nat) (c : Core) : (s.setCoreAt k c).ops = s.ops := rfl
@[simp] theorem State.setCoreAt_sigs (s : State) (k : Nat) (c : Core) : (s.setCoreAt k c).sigs = s.sigs := rfl
@[simp] theorem State.setCoreAt_tags (s : State) (k : Nat) (c : Core) : (s.setCoreAt k c).tags = s.tags := rfl
@[simp] theorem State.setCoreAt_dram (s : State) (k : Nat) (c : Core) : (s.setCoreAt k c).dram = s.dram := rfl
@[simp] theorem State.setCoreAt_remote (s : State) (k : Nat) (c : Core) : (s.setCoreAt k c).remote = s.remote := rfl
@[simp] theorem State.setCoreAt_remSeq (s : State) (k : Nat) (c : Core) : (s.setCoreAt k c).remSeq = s.remSeq := rfl
@[simp] theorem State.setCoreAt_raised (s : State) (k : Nat) (c : Core) : (s.setCoreAt k c).raised = s.raised := rfl
@[simp] theorem State.setCoreAt_evs (s : State) (k : Nat) (c : Core) : (s.setCoreAt k c).evs = s.evs := rfl
@[simp] theorem State.setCoreAt_tx (s : State) (k : Nat) (c : Core) : (s.setCoreAt k c).tx = s.tx := rfl
@[simp] theorem State.setCoreAt_fills (s : State) (k : Nat) (c : Core) : (s.setCoreAt k c).fills = s.fills := rfl
@[simp] theorem State.setCoreAt_rot (s : State) (k : Nat) (c : Core) : (s.setCoreAt k c).rot = s.rot := rfl
@[simp] theorem State.setCoreAt_fab (s : State) (k : Nat) (c : Core) : (s.setCoreAt k c).fab = s.fab := rfl
@[simp] theorem State.setCoreAt_hostOut (s : State) (k : Nat) (c : Core) : (s.setCoreAt k c).hostOut = s.hostOut := rfl
@[simp] theorem State.setCoreAt_hubQ (s : State) (k : Nat) (c : Core) : (s.setCoreAt k c).hubQ = s.hubQ := rfl
@[simp] theorem State.setCoreAt_aborts (s : State) (k : Nat) (c : Core) : (s.setCoreAt k c).aborts = s.aborts := rfl
@[simp] theorem State.setCoreAt_rcnt (s : State) (k : Nat) (c : Core) : (s.setCoreAt k c).rcnt = s.rcnt := rfl
@[simp] theorem State.setCoreAt_coreFaults (s : State) (k : Nat) (c : Core) : (s.setCoreAt k c).coreFaults = s.coreFaults := rfl
@[simp] theorem State.setCoreAt_rewritten (s : State) (k : Nat) (c : Core) : (s.setCoreAt k c).rewritten = s.rewritten := rfl
@[simp] theorem State.setCoreAt_pairs (s : State) (k : Nat) (c : Core) : (s.setCoreAt k c).pairs = s.pairs := rfl
@[simp] theorem State.setCoreAt_genLog (s : State) (k : Nat) (c : Core) : (s.setCoreAt k c).genLog = s.genLog := rfl
@[simp] theorem State.setCoreAt_launches (s : State) (k : Nat) (c : Core) : (s.setCoreAt k c).launches = s.launches := rfl
@[simp] theorem State.setCoreAt_cad (s : State) (k : Nat) (c : Core) : (s.setCoreAt k c).cad = s.cad := rfl
@[simp] theorem State.setCoreAt_thermTrip (s : State) (k : Nat) (c : Core) : (s.setCoreAt k c).thermTrip = s.thermTrip := rfl
@[simp] theorem State.setCoreAt_gate (s : State) (k : Nat) (c : Core) : (s.setCoreAt k c).gate = s.gate := rfl
@[simp] theorem State.setCoreAt_audit (s : State) (k : Nat) (c : Core) : (s.setCoreAt k c).audit = s.audit := rfl
@[simp] theorem State.setCoreAt_boot (s : State) (k : Nat) (c : Core) : (s.setCoreAt k c).boot = s.boot := rfl
@[simp] theorem State.setCoreAt_ticks (s : State) (k : Nat) (c : Core) : (s.setCoreAt k c).ticks = s.ticks := rfl
@[simp] theorem State.setCoreAt_alts (s : State) (k : Nat) (c : Core) : (s.setCoreAt k c).alts = s.alts := rfl
@[simp] theorem State.setCoreAt_unfit (s : State) (k : Nat) (c : Core) : (s.setCoreAt k c).unfit = s.unfit := rfl
@[simp] theorem State.setObj_pending (s : State) (d i v : Nat) : (s.setObj d i v).pending = s.pending := rfl
@[simp] theorem State.setObj_freeCtr (s : State) (d i v : Nat) : (s.setObj d i v).freeCtr = s.freeCtr := rfl
@[simp] theorem State.setObj_now (s : State) (d i v : Nat) : (s.setObj d i v).now = s.now := rfl
@[simp] theorem State.setObj_left (s : State) (d i v : Nat) : (s.setObj d i v).left = s.left := rfl
@[simp] theorem State.setObj_tally (s : State) (d i v : Nat) : (s.setObj d i v).tally = s.tally := rfl
@[simp] theorem State.setObj_dcy (s : State) (d i v : Nat) : (s.setObj d i v).dcy = s.dcy := rfl
@[simp] theorem State.setObj_tickLen (s : State) (d i v : Nat) : (s.setObj d i v).tickLen = s.tickLen := rfl
@[simp] theorem State.setObj_regs (s : State) (d i v : Nat) : (s.setObj d i v).regs = s.regs := rfl
@[simp] theorem State.setObj_halves (s : State) (d i v : Nat) : (s.setObj d i v).halves = s.halves := rfl
@[simp] theorem State.setObj_latched (s : State) (d i v : Nat) : (s.setObj d i v).latched = s.latched := rfl
@[simp] theorem State.setObj_cores (s : State) (d i v : Nat) : (s.setObj d i v).cores = s.cores := rfl
@[simp] theorem State.setObj_flights (s : State) (d i v : Nat) : (s.setObj d i v).flights = s.flights := rfl
@[simp] theorem State.setObj_credits (s : State) (d i v : Nat) : (s.setObj d i v).credits = s.credits := rfl
@[simp] theorem State.setObj_slots (s : State) (d i v : Nat) : (s.setObj d i v).slots = s.slots := rfl
@[simp] theorem State.setObj_srcBufs (s : State) (d i v : Nat) : (s.setObj d i v).srcBufs = s.srcBufs := rfl
@[simp] theorem State.setObj_takeAt (s : State) (d i v : Nat) : (s.setObj d i v).takeAt = s.takeAt := rfl
@[simp] theorem State.setObj_giveAt (s : State) (d i v : Nat) : (s.setObj d i v).giveAt = s.giveAt := rfl
@[simp] theorem State.setObj_syncMsgs (s : State) (d i v : Nat) : (s.setObj d i v).syncMsgs = s.syncMsgs := rfl
@[simp] theorem State.setObj_barGroups (s : State) (d i v : Nat) : (s.setObj d i v).barGroups = s.barGroups := rfl
@[simp] theorem State.setObj_xferSeq (s : State) (d i v : Nat) : (s.setObj d i v).xferSeq = s.xferSeq := rfl
@[simp] theorem State.setObj_opSeq (s : State) (d i v : Nat) : (s.setObj d i v).opSeq = s.opSeq := rfl
@[simp] theorem State.setObj_ops (s : State) (d i v : Nat) : (s.setObj d i v).ops = s.ops := rfl
@[simp] theorem State.setObj_sigs (s : State) (d i v : Nat) : (s.setObj d i v).sigs = s.sigs := rfl
@[simp] theorem State.setObj_tags (s : State) (d i v : Nat) : (s.setObj d i v).tags = s.tags := rfl
@[simp] theorem State.setObj_dram (s : State) (d i v : Nat) : (s.setObj d i v).dram = s.dram := rfl
@[simp] theorem State.setObj_remote (s : State) (d i v : Nat) : (s.setObj d i v).remote = s.remote := rfl
@[simp] theorem State.setObj_remSeq (s : State) (d i v : Nat) : (s.setObj d i v).remSeq = s.remSeq := rfl
@[simp] theorem State.setObj_raised (s : State) (d i v : Nat) : (s.setObj d i v).raised = s.raised := rfl
@[simp] theorem State.setObj_evs (s : State) (d i v : Nat) : (s.setObj d i v).evs = s.evs := rfl
@[simp] theorem State.setObj_tx (s : State) (d i v : Nat) : (s.setObj d i v).tx = s.tx := rfl
@[simp] theorem State.setObj_fills (s : State) (d i v : Nat) : (s.setObj d i v).fills = s.fills := rfl
@[simp] theorem State.setObj_rot (s : State) (d i v : Nat) : (s.setObj d i v).rot = s.rot := rfl
@[simp] theorem State.setObj_fab (s : State) (d i v : Nat) : (s.setObj d i v).fab = s.fab := rfl
@[simp] theorem State.setObj_hostOut (s : State) (d i v : Nat) : (s.setObj d i v).hostOut = s.hostOut := rfl
@[simp] theorem State.setObj_hubQ (s : State) (d i v : Nat) : (s.setObj d i v).hubQ = s.hubQ := rfl
@[simp] theorem State.setObj_aborts (s : State) (d i v : Nat) : (s.setObj d i v).aborts = s.aborts := rfl
@[simp] theorem State.setObj_rcnt (s : State) (d i v : Nat) : (s.setObj d i v).rcnt = s.rcnt := rfl
@[simp] theorem State.setObj_coreFaults (s : State) (d i v : Nat) : (s.setObj d i v).coreFaults = s.coreFaults := rfl
@[simp] theorem State.setObj_rewritten (s : State) (d i v : Nat) : (s.setObj d i v).rewritten = s.rewritten := rfl
@[simp] theorem State.setObj_pairs (s : State) (d i v : Nat) : (s.setObj d i v).pairs = s.pairs := rfl
@[simp] theorem State.setObj_genLog (s : State) (d i v : Nat) : (s.setObj d i v).genLog = s.genLog := rfl
@[simp] theorem State.setObj_launches (s : State) (d i v : Nat) : (s.setObj d i v).launches = s.launches := rfl
@[simp] theorem State.setObj_cad (s : State) (d i v : Nat) : (s.setObj d i v).cad = s.cad := rfl
@[simp] theorem State.setObj_thermTrip (s : State) (d i v : Nat) : (s.setObj d i v).thermTrip = s.thermTrip := rfl
@[simp] theorem State.setObj_gate (s : State) (d i v : Nat) : (s.setObj d i v).gate = s.gate := rfl
@[simp] theorem State.setObj_audit (s : State) (d i v : Nat) : (s.setObj d i v).audit = s.audit := rfl
@[simp] theorem State.setObj_boot (s : State) (d i v : Nat) : (s.setObj d i v).boot = s.boot := rfl
@[simp] theorem State.setObj_ticks (s : State) (d i v : Nat) : (s.setObj d i v).ticks = s.ticks := rfl
@[simp] theorem State.setObj_alts (s : State) (d i v : Nat) : (s.setObj d i v).alts = s.alts := rfl
@[simp] theorem State.setObj_unfit (s : State) (d i v : Nat) : (s.setObj d i v).unfit = s.unfit := rfl
@[simp] theorem State.setSlot_pending (s : State) (d k n : Nat) (x : Slot) : (s.setSlot d k n x).pending = s.pending := rfl
@[simp] theorem State.setSlot_freeCtr (s : State) (d k n : Nat) (x : Slot) : (s.setSlot d k n x).freeCtr = s.freeCtr := rfl
@[simp] theorem State.setSlot_now (s : State) (d k n : Nat) (x : Slot) : (s.setSlot d k n x).now = s.now := rfl
@[simp] theorem State.setSlot_left (s : State) (d k n : Nat) (x : Slot) : (s.setSlot d k n x).left = s.left := rfl
@[simp] theorem State.setSlot_tally (s : State) (d k n : Nat) (x : Slot) : (s.setSlot d k n x).tally = s.tally := rfl
@[simp] theorem State.setSlot_dcy (s : State) (d k n : Nat) (x : Slot) : (s.setSlot d k n x).dcy = s.dcy := rfl
@[simp] theorem State.setSlot_tickLen (s : State) (d k n : Nat) (x : Slot) : (s.setSlot d k n x).tickLen = s.tickLen := rfl
@[simp] theorem State.setSlot_regs (s : State) (d k n : Nat) (x : Slot) : (s.setSlot d k n x).regs = s.regs := rfl
@[simp] theorem State.setSlot_halves (s : State) (d k n : Nat) (x : Slot) : (s.setSlot d k n x).halves = s.halves := rfl
@[simp] theorem State.setSlot_latched (s : State) (d k n : Nat) (x : Slot) : (s.setSlot d k n x).latched = s.latched := rfl
@[simp] theorem State.setSlot_cores (s : State) (d k n : Nat) (x : Slot) : (s.setSlot d k n x).cores = s.cores := rfl
@[simp] theorem State.setSlot_flights (s : State) (d k n : Nat) (x : Slot) : (s.setSlot d k n x).flights = s.flights := rfl
@[simp] theorem State.setSlot_credits (s : State) (d k n : Nat) (x : Slot) : (s.setSlot d k n x).credits = s.credits := rfl
@[simp] theorem State.setSlot_srcBufs (s : State) (d k n : Nat) (x : Slot) : (s.setSlot d k n x).srcBufs = s.srcBufs := rfl
@[simp] theorem State.setSlot_takeAt (s : State) (d k n : Nat) (x : Slot) : (s.setSlot d k n x).takeAt = s.takeAt := rfl
@[simp] theorem State.setSlot_giveAt (s : State) (d k n : Nat) (x : Slot) : (s.setSlot d k n x).giveAt = s.giveAt := rfl
@[simp] theorem State.setSlot_sync (s : State) (d k n : Nat) (x : Slot) : (s.setSlot d k n x).sync = s.sync := rfl
@[simp] theorem State.setSlot_syncMsgs (s : State) (d k n : Nat) (x : Slot) : (s.setSlot d k n x).syncMsgs = s.syncMsgs := rfl
@[simp] theorem State.setSlot_barGroups (s : State) (d k n : Nat) (x : Slot) : (s.setSlot d k n x).barGroups = s.barGroups := rfl
@[simp] theorem State.setSlot_xferSeq (s : State) (d k n : Nat) (x : Slot) : (s.setSlot d k n x).xferSeq = s.xferSeq := rfl
@[simp] theorem State.setSlot_opSeq (s : State) (d k n : Nat) (x : Slot) : (s.setSlot d k n x).opSeq = s.opSeq := rfl
@[simp] theorem State.setSlot_ops (s : State) (d k n : Nat) (x : Slot) : (s.setSlot d k n x).ops = s.ops := rfl
@[simp] theorem State.setSlot_sigs (s : State) (d k n : Nat) (x : Slot) : (s.setSlot d k n x).sigs = s.sigs := rfl
@[simp] theorem State.setSlot_tags (s : State) (d k n : Nat) (x : Slot) : (s.setSlot d k n x).tags = s.tags := rfl
@[simp] theorem State.setSlot_dram (s : State) (d k n : Nat) (x : Slot) : (s.setSlot d k n x).dram = s.dram := rfl
@[simp] theorem State.setSlot_remote (s : State) (d k n : Nat) (x : Slot) : (s.setSlot d k n x).remote = s.remote := rfl
@[simp] theorem State.setSlot_remSeq (s : State) (d k n : Nat) (x : Slot) : (s.setSlot d k n x).remSeq = s.remSeq := rfl
@[simp] theorem State.setSlot_raised (s : State) (d k n : Nat) (x : Slot) : (s.setSlot d k n x).raised = s.raised := rfl
@[simp] theorem State.setSlot_evs (s : State) (d k n : Nat) (x : Slot) : (s.setSlot d k n x).evs = s.evs := rfl
@[simp] theorem State.setSlot_tx (s : State) (d k n : Nat) (x : Slot) : (s.setSlot d k n x).tx = s.tx := rfl
@[simp] theorem State.setSlot_fills (s : State) (d k n : Nat) (x : Slot) : (s.setSlot d k n x).fills = s.fills := rfl
@[simp] theorem State.setSlot_rot (s : State) (d k n : Nat) (x : Slot) : (s.setSlot d k n x).rot = s.rot := rfl
@[simp] theorem State.setSlot_fab (s : State) (d k n : Nat) (x : Slot) : (s.setSlot d k n x).fab = s.fab := rfl
@[simp] theorem State.setSlot_hostOut (s : State) (d k n : Nat) (x : Slot) : (s.setSlot d k n x).hostOut = s.hostOut := rfl
@[simp] theorem State.setSlot_hubQ (s : State) (d k n : Nat) (x : Slot) : (s.setSlot d k n x).hubQ = s.hubQ := rfl
@[simp] theorem State.setSlot_aborts (s : State) (d k n : Nat) (x : Slot) : (s.setSlot d k n x).aborts = s.aborts := rfl
@[simp] theorem State.setSlot_rcnt (s : State) (d k n : Nat) (x : Slot) : (s.setSlot d k n x).rcnt = s.rcnt := rfl
@[simp] theorem State.setSlot_coreFaults (s : State) (d k n : Nat) (x : Slot) : (s.setSlot d k n x).coreFaults = s.coreFaults := rfl
@[simp] theorem State.setSlot_rewritten (s : State) (d k n : Nat) (x : Slot) : (s.setSlot d k n x).rewritten = s.rewritten := rfl
@[simp] theorem State.setSlot_pairs (s : State) (d k n : Nat) (x : Slot) : (s.setSlot d k n x).pairs = s.pairs := rfl
@[simp] theorem State.setSlot_genLog (s : State) (d k n : Nat) (x : Slot) : (s.setSlot d k n x).genLog = s.genLog := rfl
@[simp] theorem State.setSlot_launches (s : State) (d k n : Nat) (x : Slot) : (s.setSlot d k n x).launches = s.launches := rfl
@[simp] theorem State.setSlot_cad (s : State) (d k n : Nat) (x : Slot) : (s.setSlot d k n x).cad = s.cad := rfl
@[simp] theorem State.setSlot_thermTrip (s : State) (d k n : Nat) (x : Slot) : (s.setSlot d k n x).thermTrip = s.thermTrip := rfl
@[simp] theorem State.setSlot_gate (s : State) (d k n : Nat) (x : Slot) : (s.setSlot d k n x).gate = s.gate := rfl
@[simp] theorem State.setSlot_audit (s : State) (d k n : Nat) (x : Slot) : (s.setSlot d k n x).audit = s.audit := rfl
@[simp] theorem State.setSlot_boot (s : State) (d k n : Nat) (x : Slot) : (s.setSlot d k n x).boot = s.boot := rfl
@[simp] theorem State.setSlot_ticks (s : State) (d k n : Nat) (x : Slot) : (s.setSlot d k n x).ticks = s.ticks := rfl
@[simp] theorem State.setSlot_alts (s : State) (d k n : Nat) (x : Slot) : (s.setSlot d k n x).alts = s.alts := rfl
@[simp] theorem State.setSlot_unfit (s : State) (d k n : Nat) (x : Slot) : (s.setSlot d k n x).unfit = s.unfit := rfl
@[simp] theorem State.setBuf_pending (s : State) (d k n : Nat) (l : List SrcElem) : (s.setBuf d k n l).pending = s.pending := rfl
@[simp] theorem State.setBuf_freeCtr (s : State) (d k n : Nat) (l : List SrcElem) : (s.setBuf d k n l).freeCtr = s.freeCtr := rfl
@[simp] theorem State.setBuf_now (s : State) (d k n : Nat) (l : List SrcElem) : (s.setBuf d k n l).now = s.now := rfl
@[simp] theorem State.setBuf_left (s : State) (d k n : Nat) (l : List SrcElem) : (s.setBuf d k n l).left = s.left := rfl
@[simp] theorem State.setBuf_tally (s : State) (d k n : Nat) (l : List SrcElem) : (s.setBuf d k n l).tally = s.tally := rfl
@[simp] theorem State.setBuf_dcy (s : State) (d k n : Nat) (l : List SrcElem) : (s.setBuf d k n l).dcy = s.dcy := rfl
@[simp] theorem State.setBuf_tickLen (s : State) (d k n : Nat) (l : List SrcElem) : (s.setBuf d k n l).tickLen = s.tickLen := rfl
@[simp] theorem State.setBuf_regs (s : State) (d k n : Nat) (l : List SrcElem) : (s.setBuf d k n l).regs = s.regs := rfl
@[simp] theorem State.setBuf_halves (s : State) (d k n : Nat) (l : List SrcElem) : (s.setBuf d k n l).halves = s.halves := rfl
@[simp] theorem State.setBuf_latched (s : State) (d k n : Nat) (l : List SrcElem) : (s.setBuf d k n l).latched = s.latched := rfl
@[simp] theorem State.setBuf_cores (s : State) (d k n : Nat) (l : List SrcElem) : (s.setBuf d k n l).cores = s.cores := rfl
@[simp] theorem State.setBuf_flights (s : State) (d k n : Nat) (l : List SrcElem) : (s.setBuf d k n l).flights = s.flights := rfl
@[simp] theorem State.setBuf_credits (s : State) (d k n : Nat) (l : List SrcElem) : (s.setBuf d k n l).credits = s.credits := rfl
@[simp] theorem State.setBuf_slots (s : State) (d k n : Nat) (l : List SrcElem) : (s.setBuf d k n l).slots = s.slots := rfl
@[simp] theorem State.setBuf_takeAt (s : State) (d k n : Nat) (l : List SrcElem) : (s.setBuf d k n l).takeAt = s.takeAt := rfl
@[simp] theorem State.setBuf_giveAt (s : State) (d k n : Nat) (l : List SrcElem) : (s.setBuf d k n l).giveAt = s.giveAt := rfl
@[simp] theorem State.setBuf_sync (s : State) (d k n : Nat) (l : List SrcElem) : (s.setBuf d k n l).sync = s.sync := rfl
@[simp] theorem State.setBuf_syncMsgs (s : State) (d k n : Nat) (l : List SrcElem) : (s.setBuf d k n l).syncMsgs = s.syncMsgs := rfl
@[simp] theorem State.setBuf_barGroups (s : State) (d k n : Nat) (l : List SrcElem) : (s.setBuf d k n l).barGroups = s.barGroups := rfl
@[simp] theorem State.setBuf_xferSeq (s : State) (d k n : Nat) (l : List SrcElem) : (s.setBuf d k n l).xferSeq = s.xferSeq := rfl
@[simp] theorem State.setBuf_opSeq (s : State) (d k n : Nat) (l : List SrcElem) : (s.setBuf d k n l).opSeq = s.opSeq := rfl
@[simp] theorem State.setBuf_ops (s : State) (d k n : Nat) (l : List SrcElem) : (s.setBuf d k n l).ops = s.ops := rfl
@[simp] theorem State.setBuf_sigs (s : State) (d k n : Nat) (l : List SrcElem) : (s.setBuf d k n l).sigs = s.sigs := rfl
@[simp] theorem State.setBuf_tags (s : State) (d k n : Nat) (l : List SrcElem) : (s.setBuf d k n l).tags = s.tags := rfl
@[simp] theorem State.setBuf_dram (s : State) (d k n : Nat) (l : List SrcElem) : (s.setBuf d k n l).dram = s.dram := rfl
@[simp] theorem State.setBuf_remote (s : State) (d k n : Nat) (l : List SrcElem) : (s.setBuf d k n l).remote = s.remote := rfl
@[simp] theorem State.setBuf_remSeq (s : State) (d k n : Nat) (l : List SrcElem) : (s.setBuf d k n l).remSeq = s.remSeq := rfl
@[simp] theorem State.setBuf_raised (s : State) (d k n : Nat) (l : List SrcElem) : (s.setBuf d k n l).raised = s.raised := rfl
@[simp] theorem State.setBuf_evs (s : State) (d k n : Nat) (l : List SrcElem) : (s.setBuf d k n l).evs = s.evs := rfl
@[simp] theorem State.setBuf_tx (s : State) (d k n : Nat) (l : List SrcElem) : (s.setBuf d k n l).tx = s.tx := rfl
@[simp] theorem State.setBuf_fills (s : State) (d k n : Nat) (l : List SrcElem) : (s.setBuf d k n l).fills = s.fills := rfl
@[simp] theorem State.setBuf_rot (s : State) (d k n : Nat) (l : List SrcElem) : (s.setBuf d k n l).rot = s.rot := rfl
@[simp] theorem State.setBuf_fab (s : State) (d k n : Nat) (l : List SrcElem) : (s.setBuf d k n l).fab = s.fab := rfl
@[simp] theorem State.setBuf_hostOut (s : State) (d k n : Nat) (l : List SrcElem) : (s.setBuf d k n l).hostOut = s.hostOut := rfl
@[simp] theorem State.setBuf_hubQ (s : State) (d k n : Nat) (l : List SrcElem) : (s.setBuf d k n l).hubQ = s.hubQ := rfl
@[simp] theorem State.setBuf_aborts (s : State) (d k n : Nat) (l : List SrcElem) : (s.setBuf d k n l).aborts = s.aborts := rfl
@[simp] theorem State.setBuf_rcnt (s : State) (d k n : Nat) (l : List SrcElem) : (s.setBuf d k n l).rcnt = s.rcnt := rfl
@[simp] theorem State.setBuf_coreFaults (s : State) (d k n : Nat) (l : List SrcElem) : (s.setBuf d k n l).coreFaults = s.coreFaults := rfl
@[simp] theorem State.setBuf_rewritten (s : State) (d k n : Nat) (l : List SrcElem) : (s.setBuf d k n l).rewritten = s.rewritten := rfl
@[simp] theorem State.setBuf_pairs (s : State) (d k n : Nat) (l : List SrcElem) : (s.setBuf d k n l).pairs = s.pairs := rfl
@[simp] theorem State.setBuf_genLog (s : State) (d k n : Nat) (l : List SrcElem) : (s.setBuf d k n l).genLog = s.genLog := rfl
@[simp] theorem State.setBuf_launches (s : State) (d k n : Nat) (l : List SrcElem) : (s.setBuf d k n l).launches = s.launches := rfl
@[simp] theorem State.setBuf_cad (s : State) (d k n : Nat) (l : List SrcElem) : (s.setBuf d k n l).cad = s.cad := rfl
@[simp] theorem State.setBuf_thermTrip (s : State) (d k n : Nat) (l : List SrcElem) : (s.setBuf d k n l).thermTrip = s.thermTrip := rfl
@[simp] theorem State.setBuf_gate (s : State) (d k n : Nat) (l : List SrcElem) : (s.setBuf d k n l).gate = s.gate := rfl
@[simp] theorem State.setBuf_audit (s : State) (d k n : Nat) (l : List SrcElem) : (s.setBuf d k n l).audit = s.audit := rfl
@[simp] theorem State.setBuf_boot (s : State) (d k n : Nat) (l : List SrcElem) : (s.setBuf d k n l).boot = s.boot := rfl
@[simp] theorem State.setBuf_ticks (s : State) (d k n : Nat) (l : List SrcElem) : (s.setBuf d k n l).ticks = s.ticks := rfl
@[simp] theorem State.setBuf_alts (s : State) (d k n : Nat) (l : List SrcElem) : (s.setBuf d k n l).alts = s.alts := rfl
@[simp] theorem State.setBuf_unfit (s : State) (d k n : Nat) (l : List SrcElem) : (s.setBuf d k n l).unfit = s.unfit := rfl
@[simp] theorem State.setDram_pending (s : State) (m : Nat) (x : Dram) : (s.setDram m x).pending = s.pending := rfl
@[simp] theorem State.setDram_freeCtr (s : State) (m : Nat) (x : Dram) : (s.setDram m x).freeCtr = s.freeCtr := rfl
@[simp] theorem State.setDram_now (s : State) (m : Nat) (x : Dram) : (s.setDram m x).now = s.now := rfl
@[simp] theorem State.setDram_left (s : State) (m : Nat) (x : Dram) : (s.setDram m x).left = s.left := rfl
@[simp] theorem State.setDram_tally (s : State) (m : Nat) (x : Dram) : (s.setDram m x).tally = s.tally := rfl
@[simp] theorem State.setDram_dcy (s : State) (m : Nat) (x : Dram) : (s.setDram m x).dcy = s.dcy := rfl
@[simp] theorem State.setDram_tickLen (s : State) (m : Nat) (x : Dram) : (s.setDram m x).tickLen = s.tickLen := rfl
@[simp] theorem State.setDram_regs (s : State) (m : Nat) (x : Dram) : (s.setDram m x).regs = s.regs := rfl
@[simp] theorem State.setDram_halves (s : State) (m : Nat) (x : Dram) : (s.setDram m x).halves = s.halves := rfl
@[simp] theorem State.setDram_latched (s : State) (m : Nat) (x : Dram) : (s.setDram m x).latched = s.latched := rfl
@[simp] theorem State.setDram_cores (s : State) (m : Nat) (x : Dram) : (s.setDram m x).cores = s.cores := rfl
@[simp] theorem State.setDram_flights (s : State) (m : Nat) (x : Dram) : (s.setDram m x).flights = s.flights := rfl
@[simp] theorem State.setDram_credits (s : State) (m : Nat) (x : Dram) : (s.setDram m x).credits = s.credits := rfl
@[simp] theorem State.setDram_slots (s : State) (m : Nat) (x : Dram) : (s.setDram m x).slots = s.slots := rfl
@[simp] theorem State.setDram_srcBufs (s : State) (m : Nat) (x : Dram) : (s.setDram m x).srcBufs = s.srcBufs := rfl
@[simp] theorem State.setDram_takeAt (s : State) (m : Nat) (x : Dram) : (s.setDram m x).takeAt = s.takeAt := rfl
@[simp] theorem State.setDram_giveAt (s : State) (m : Nat) (x : Dram) : (s.setDram m x).giveAt = s.giveAt := rfl
@[simp] theorem State.setDram_sync (s : State) (m : Nat) (x : Dram) : (s.setDram m x).sync = s.sync := rfl
@[simp] theorem State.setDram_syncMsgs (s : State) (m : Nat) (x : Dram) : (s.setDram m x).syncMsgs = s.syncMsgs := rfl
@[simp] theorem State.setDram_barGroups (s : State) (m : Nat) (x : Dram) : (s.setDram m x).barGroups = s.barGroups := rfl
@[simp] theorem State.setDram_xferSeq (s : State) (m : Nat) (x : Dram) : (s.setDram m x).xferSeq = s.xferSeq := rfl
@[simp] theorem State.setDram_opSeq (s : State) (m : Nat) (x : Dram) : (s.setDram m x).opSeq = s.opSeq := rfl
@[simp] theorem State.setDram_ops (s : State) (m : Nat) (x : Dram) : (s.setDram m x).ops = s.ops := rfl
@[simp] theorem State.setDram_sigs (s : State) (m : Nat) (x : Dram) : (s.setDram m x).sigs = s.sigs := rfl
@[simp] theorem State.setDram_tags (s : State) (m : Nat) (x : Dram) : (s.setDram m x).tags = s.tags := rfl
@[simp] theorem State.setDram_remote (s : State) (m : Nat) (x : Dram) : (s.setDram m x).remote = s.remote := rfl
@[simp] theorem State.setDram_remSeq (s : State) (m : Nat) (x : Dram) : (s.setDram m x).remSeq = s.remSeq := rfl
@[simp] theorem State.setDram_raised (s : State) (m : Nat) (x : Dram) : (s.setDram m x).raised = s.raised := rfl
@[simp] theorem State.setDram_evs (s : State) (m : Nat) (x : Dram) : (s.setDram m x).evs = s.evs := rfl
@[simp] theorem State.setDram_tx (s : State) (m : Nat) (x : Dram) : (s.setDram m x).tx = s.tx := rfl
@[simp] theorem State.setDram_fills (s : State) (m : Nat) (x : Dram) : (s.setDram m x).fills = s.fills := rfl
@[simp] theorem State.setDram_rot (s : State) (m : Nat) (x : Dram) : (s.setDram m x).rot = s.rot := rfl
@[simp] theorem State.setDram_fab (s : State) (m : Nat) (x : Dram) : (s.setDram m x).fab = s.fab := rfl
@[simp] theorem State.setDram_hostOut (s : State) (m : Nat) (x : Dram) : (s.setDram m x).hostOut = s.hostOut := rfl
@[simp] theorem State.setDram_hubQ (s : State) (m : Nat) (x : Dram) : (s.setDram m x).hubQ = s.hubQ := rfl
@[simp] theorem State.setDram_aborts (s : State) (m : Nat) (x : Dram) : (s.setDram m x).aborts = s.aborts := rfl
@[simp] theorem State.setDram_rcnt (s : State) (m : Nat) (x : Dram) : (s.setDram m x).rcnt = s.rcnt := rfl
@[simp] theorem State.setDram_coreFaults (s : State) (m : Nat) (x : Dram) : (s.setDram m x).coreFaults = s.coreFaults := rfl
@[simp] theorem State.setDram_rewritten (s : State) (m : Nat) (x : Dram) : (s.setDram m x).rewritten = s.rewritten := rfl
@[simp] theorem State.setDram_pairs (s : State) (m : Nat) (x : Dram) : (s.setDram m x).pairs = s.pairs := rfl
@[simp] theorem State.setDram_genLog (s : State) (m : Nat) (x : Dram) : (s.setDram m x).genLog = s.genLog := rfl
@[simp] theorem State.setDram_launches (s : State) (m : Nat) (x : Dram) : (s.setDram m x).launches = s.launches := rfl
@[simp] theorem State.setDram_cad (s : State) (m : Nat) (x : Dram) : (s.setDram m x).cad = s.cad := rfl
@[simp] theorem State.setDram_thermTrip (s : State) (m : Nat) (x : Dram) : (s.setDram m x).thermTrip = s.thermTrip := rfl
@[simp] theorem State.setDram_gate (s : State) (m : Nat) (x : Dram) : (s.setDram m x).gate = s.gate := rfl
@[simp] theorem State.setDram_audit (s : State) (m : Nat) (x : Dram) : (s.setDram m x).audit = s.audit := rfl
@[simp] theorem State.setDram_boot (s : State) (m : Nat) (x : Dram) : (s.setDram m x).boot = s.boot := rfl
@[simp] theorem State.setDram_ticks (s : State) (m : Nat) (x : Dram) : (s.setDram m x).ticks = s.ticks := rfl
@[simp] theorem State.setDram_alts (s : State) (m : Nat) (x : Dram) : (s.setDram m x).alts = s.alts := rfl
@[simp] theorem State.setDram_unfit (s : State) (m : Nat) (x : Dram) : (s.setDram m x).unfit = s.unfit := rfl
theorem State.noteHub_eq (s : State) (e i n : Nat) : s.noteHub e i n = { s with evs := (s.noteHub e i n).evs } := by
  unfold State.noteHub; split <;> rfl
theorem State.noteDie_eq (s : State) (d e i n : Nat) : s.noteDie d e i n = { s with evs := (s.noteDie d e i n).evs } := by
  unfold State.noteDie; split <;> rfl
theorem State.noteCore_eq (s : State) (k e i n : Nat) : s.noteCore k e i n = { s with evs := (s.noteCore k e i n).evs } := by
  unfold State.noteCore; split <;> rfl

@[simp] theorem State.reg_setReg_same (s : State) (o : Nat) (w : Word) : (s.setReg o w).reg o = w := by
  simp [State.reg, State.setReg]
theorem State.reg_setReg_other (s : State) {o p : Nat} (w : Word) (h : p ≠ o) : (s.setReg o w).reg p = s.reg p :=
  Tab.get_set_other _ _ w h
@[simp] theorem State.reg_setFld_same (s : State) (o a b v : Nat) :
    (s.setFld o a b v).reg o = Machine.setFld (s.reg o) a b v := by simp [State.setFld]
theorem State.reg_setFld_other (s : State) {o p : Nat} (a b v : Nat) (h : p ≠ o) : (s.setFld o a b v).reg p = s.reg p :=
  State.reg_setReg_other s _ h
@[simp] theorem State.coreAt_setCoreAt_same (s : State) (k : Nat) (c : Core) : (s.setCoreAt k c).coreAt k = c := by
  simp [State.coreAt, State.setCoreAt]
theorem State.coreAt_setCoreAt_other (s : State) {j k : Nat} (c : Core) (h : j ≠ k) :
    (s.setCoreAt k c).coreAt j = s.coreAt j := Tab.get_set_other _ _ c h
@[simp] theorem State.reg_setCoreAt (s : State) (k : Nat) (c : Core) (o : Nat) : (s.setCoreAt k c).reg o = s.reg o := rfl
@[simp] theorem State.fld_setCoreAt (s : State) (k : Nat) (c : Core) (o a b : Nat) : (s.setCoreAt k c).fld o a b = s.fld o a b := rfl
@[simp] theorem State.coreAt_setReg (s : State) (o : Nat) (w : Word) (k : Nat) : (s.setReg o w).coreAt k = s.coreAt k := rfl
theorem State.obj_setObj_val (s : State) (d i v : Nat) :
    ((s.setObj d i v).obj d i).val = ({ (s.obj d i).today s.now with base := v % 2 ^ 32 } : SyncObj).total % 2 ^ 32 := by
  simp [State.obj, State.setObj, State.putObj]
/-- A write of an object that no RESET and no increment of the die cycle has reached leaves the value written. -/
theorem State.obj_setObj_fresh (s : State) (d i v : Nat) (h : (s.obj d i).at_ ≠ s.now + 1) :
    ((s.setObj d i v).obj d i).val = v % 2 ^ 32 := by
  rw [State.obj_setObj_val]
  simp [SyncObj.today, h, SyncObj.total]
@[simp] theorem State.slot_setSlot_same (s : State) (d k n : Nat) (x : Slot) : (s.setSlot d k n x).slot d k n = x := by
  simp [State.slot, State.setSlot]
@[simp] theorem State.dramOf_setDram_same (s : State) (m : Nat) (x : Dram) : (s.setDram m x).dramOf m = x := by
  simp [State.dramOf, State.setDram]

/-! ### One core -/

@[simp] theorem Core.setReg_mem (c : Core) (o : Nat) (w : Word) : (c.setReg o w).mem = c.mem := rfl
@[simp] theorem Core.setReg_ecc (c : Core) (o : Nat) (w : Word) : (c.setReg o w).ecc = c.ecc := rfl
@[simp] theorem Core.setReg_fifo (c : Core) (o : Nat) (w : Word) : (c.setReg o w).fifo = c.fifo := rfl
@[simp] theorem Core.setReg_seq (c : Core) (o : Nat) (w : Word) : (c.setReg o w).seq = c.seq := rfl
@[simp] theorem Core.setReg_skew (c : Core) (o : Nat) (w : Word) : (c.setReg o w).skew = c.skew := rfl
@[simp] theorem Core.setReg_stall (c : Core) (o : Nat) (w : Word) : (c.setReg o w).stall = c.stall := rfl
@[simp] theorem Core.setReg_mxAt (c : Core) (o : Nat) (w : Word) : (c.setReg o w).mxAt = c.mxAt := rfl
@[simp] theorem Core.setReg_vxAt (c : Core) (o : Nat) (w : Word) : (c.setReg o w).vxAt = c.vxAt := rfl
@[simp] theorem Core.setReg_sxAt (c : Core) (o : Nat) (w : Word) : (c.setReg o w).sxAt = c.sxAt := rfl
@[simp] theorem Core.setReg_qxAt (c : Core) (o : Nat) (w : Word) : (c.setReg o w).qxAt = c.qxAt := rfl
@[simp] theorem Core.setReg_emAt (c : Core) (o : Nat) (w : Word) : (c.setReg o w).emAt = c.emAt := rfl
@[simp] theorem Core.setReg_wreg (c : Core) (o : Nat) (w : Word) : (c.setReg o w).wreg = c.wreg := rfl
@[simp] theorem Core.setReg_areg (c : Core) (o : Nat) (w : Word) : (c.setReg o w).areg = c.areg := rfl
@[simp] theorem Core.setReg_wload (c : Core) (o : Nat) (w : Word) : (c.setReg o w).wload = c.wload := rfl
@[simp] theorem Core.setReg_aload (c : Core) (o : Nat) (w : Word) : (c.setReg o w).aload = c.aload := rfl
@[simp] theorem Core.setReg_acc (c : Core) (o : Nat) (w : Word) : (c.setReg o w).acc = c.acc := rfl
@[simp] theorem Core.setReg_seen (c : Core) (o : Nat) (w : Word) : (c.setReg o w).seen = c.seen := rfl
@[simp] theorem Core.setReg_mxs (c : Core) (o : Nat) (w : Word) : (c.setReg o w).mxs = c.mxs := rfl
@[simp] theorem Core.setReg_vxs (c : Core) (o : Nat) (w : Word) : (c.setReg o w).vxs = c.vxs := rfl
@[simp] theorem Core.setReg_late (c : Core) (o : Nat) (w : Word) : (c.setReg o w).late = c.late := rfl
@[simp] theorem Core.setReg_slog (c : Core) (o : Nat) (w : Word) : (c.setReg o w).slog = c.slog := rfl
@[simp] theorem Core.setReg_wlog (c : Core) (o : Nat) (w : Word) : (c.setReg o w).wlog = c.wlog := rfl
@[simp] theorem Core.setReg_busy (c : Core) (o : Nat) (w : Word) : (c.setReg o w).busy = c.busy := rfl
@[simp] theorem Core.setReg_rd (c : Core) (o : Nat) (w : Word) : (c.setReg o w).rd = c.rd := rfl
@[simp] theorem Core.setReg_wr (c : Core) (o : Nat) (w : Word) : (c.setReg o w).wr = c.wr := rfl
@[simp] theorem Core.setReg_chan (c : Core) (o : Nat) (w : Word) : (c.setReg o w).chan = c.chan := rfl
@[simp] theorem Core.setReg_xfers (c : Core) (o : Nat) (w : Word) : (c.setReg o w).xfers = c.xfers := rfl
@[simp] theorem Core.setReg_gutter (c : Core) (o : Nat) (w : Word) : (c.setReg o w).gutter = c.gutter := rfl
@[simp] theorem Core.setReg_extU (c : Core) (o : Nat) (w : Word) : (c.setReg o w).extU = c.extU := rfl
@[simp] theorem Core.setReg_heldTag (c : Core) (o : Nat) (w : Word) : (c.setReg o w).heldTag = c.heldTag := rfl
@[simp] theorem Core.setReg_zeroUntil (c : Core) (o : Nat) (w : Word) : (c.setReg o w).zeroUntil = c.zeroUntil := rfl
@[simp] theorem Core.setReg_fid (c : Core) (o : Nat) (w : Word) : (c.setReg o w).fid = c.fid := rfl
@[simp] theorem Core.setReg_fctr (c : Core) (o : Nat) (w : Word) : (c.setReg o w).fctr = c.fctr := rfl
@[simp] theorem Core.setReg_evs (c : Core) (o : Nat) (w : Word) : (c.setReg o w).evs = c.evs := rfl
@[simp] theorem Core.setReg_outs (c : Core) (o : Nat) (w : Word) : (c.setReg o w).outs = c.outs := rfl
@[simp] theorem Core.setReg_faults (c : Core) (o : Nat) (w : Word) : (c.setReg o w).faults = c.faults := rfl
@[simp] theorem Core.setReg_form (c : Core) (o : Nat) (w : Word) : (c.setReg o w).form = c.form := rfl
@[simp] theorem Core.setReg_prods (c : Core) (o : Nat) (w : Word) : (c.setReg o w).prods = c.prods := rfl
@[simp] theorem Core.setReg_sticky (c : Core) (o : Nat) (w : Word) : (c.setReg o w).sticky = c.sticky := rfl
@[simp] theorem Core.setReg_clog (c : Core) (o : Nat) (w : Word) : (c.setReg o w).clog = c.clog := rfl
@[simp] theorem Core.setReg_vxPrev (c : Core) (o : Nat) (w : Word) : (c.setReg o w).vxPrev = c.vxPrev := rfl
@[simp] theorem Core.setReg_extGo (c : Core) (o : Nat) (w : Word) : (c.setReg o w).extGo = c.extGo := rfl
@[simp] theorem Core.setReg_kernels (c : Core) (o : Nat) (w : Word) : (c.setReg o w).kernels = c.kernels := rfl
@[simp] theorem Core.setRd_regs (c : Core) (q v : Nat) : (c.setRd q v).regs = c.regs := rfl
@[simp] theorem Core.setRd_mem (c : Core) (q v : Nat) : (c.setRd q v).mem = c.mem := rfl
@[simp] theorem Core.setRd_ecc (c : Core) (q v : Nat) : (c.setRd q v).ecc = c.ecc := rfl
@[simp] theorem Core.setRd_fifo (c : Core) (q v : Nat) : (c.setRd q v).fifo = c.fifo := rfl
@[simp] theorem Core.setRd_seq (c : Core) (q v : Nat) : (c.setRd q v).seq = c.seq := rfl
@[simp] theorem Core.setRd_skew (c : Core) (q v : Nat) : (c.setRd q v).skew = c.skew := rfl
@[simp] theorem Core.setRd_stall (c : Core) (q v : Nat) : (c.setRd q v).stall = c.stall := rfl
@[simp] theorem Core.setRd_mxAt (c : Core) (q v : Nat) : (c.setRd q v).mxAt = c.mxAt := rfl
@[simp] theorem Core.setRd_vxAt (c : Core) (q v : Nat) : (c.setRd q v).vxAt = c.vxAt := rfl
@[simp] theorem Core.setRd_sxAt (c : Core) (q v : Nat) : (c.setRd q v).sxAt = c.sxAt := rfl
@[simp] theorem Core.setRd_qxAt (c : Core) (q v : Nat) : (c.setRd q v).qxAt = c.qxAt := rfl
@[simp] theorem Core.setRd_emAt (c : Core) (q v : Nat) : (c.setRd q v).emAt = c.emAt := rfl
@[simp] theorem Core.setRd_wreg (c : Core) (q v : Nat) : (c.setRd q v).wreg = c.wreg := rfl
@[simp] theorem Core.setRd_areg (c : Core) (q v : Nat) : (c.setRd q v).areg = c.areg := rfl
@[simp] theorem Core.setRd_wload (c : Core) (q v : Nat) : (c.setRd q v).wload = c.wload := rfl
@[simp] theorem Core.setRd_aload (c : Core) (q v : Nat) : (c.setRd q v).aload = c.aload := rfl
@[simp] theorem Core.setRd_acc (c : Core) (q v : Nat) : (c.setRd q v).acc = c.acc := rfl
@[simp] theorem Core.setRd_seen (c : Core) (q v : Nat) : (c.setRd q v).seen = c.seen := rfl
@[simp] theorem Core.setRd_mxs (c : Core) (q v : Nat) : (c.setRd q v).mxs = c.mxs := rfl
@[simp] theorem Core.setRd_vxs (c : Core) (q v : Nat) : (c.setRd q v).vxs = c.vxs := rfl
@[simp] theorem Core.setRd_late (c : Core) (q v : Nat) : (c.setRd q v).late = c.late := rfl
@[simp] theorem Core.setRd_slog (c : Core) (q v : Nat) : (c.setRd q v).slog = c.slog := rfl
@[simp] theorem Core.setRd_wlog (c : Core) (q v : Nat) : (c.setRd q v).wlog = c.wlog := rfl
@[simp] theorem Core.setRd_busy (c : Core) (q v : Nat) : (c.setRd q v).busy = c.busy := rfl
@[simp] theorem Core.setRd_wr (c : Core) (q v : Nat) : (c.setRd q v).wr = c.wr := rfl
@[simp] theorem Core.setRd_chan (c : Core) (q v : Nat) : (c.setRd q v).chan = c.chan := rfl
@[simp] theorem Core.setRd_xfers (c : Core) (q v : Nat) : (c.setRd q v).xfers = c.xfers := rfl
@[simp] theorem Core.setRd_gutter (c : Core) (q v : Nat) : (c.setRd q v).gutter = c.gutter := rfl
@[simp] theorem Core.setRd_extU (c : Core) (q v : Nat) : (c.setRd q v).extU = c.extU := rfl
@[simp] theorem Core.setRd_heldTag (c : Core) (q v : Nat) : (c.setRd q v).heldTag = c.heldTag := rfl
@[simp] theorem Core.setRd_zeroUntil (c : Core) (q v : Nat) : (c.setRd q v).zeroUntil = c.zeroUntil := rfl
@[simp] theorem Core.setRd_fid (c : Core) (q v : Nat) : (c.setRd q v).fid = c.fid := rfl
@[simp] theorem Core.setRd_fctr (c : Core) (q v : Nat) : (c.setRd q v).fctr = c.fctr := rfl
@[simp] theorem Core.setRd_evs (c : Core) (q v : Nat) : (c.setRd q v).evs = c.evs := rfl
@[simp] theorem Core.setRd_outs (c : Core) (q v : Nat) : (c.setRd q v).outs = c.outs := rfl
@[simp] theorem Core.setRd_faults (c : Core) (q v : Nat) : (c.setRd q v).faults = c.faults := rfl
@[simp] theorem Core.setRd_form (c : Core) (q v : Nat) : (c.setRd q v).form = c.form := rfl
@[simp] theorem Core.setRd_prods (c : Core) (q v : Nat) : (c.setRd q v).prods = c.prods := rfl
@[simp] theorem Core.setRd_sticky (c : Core) (q v : Nat) : (c.setRd q v).sticky = c.sticky := rfl
@[simp] theorem Core.setRd_clog (c : Core) (q v : Nat) : (c.setRd q v).clog = c.clog := rfl
@[simp] theorem Core.setRd_vxPrev (c : Core) (q v : Nat) : (c.setRd q v).vxPrev = c.vxPrev := rfl
@[simp] theorem Core.setRd_extGo (c : Core) (q v : Nat) : (c.setRd q v).extGo = c.extGo := rfl
@[simp] theorem Core.setRd_kernels (c : Core) (q v : Nat) : (c.setRd q v).kernels = c.kernels := rfl
@[simp] theorem Core.setWr_regs (c : Core) (q v : Nat) : (c.setWr q v).regs = c.regs := rfl
@[simp] theorem Core.setWr_mem (c : Core) (q v : Nat) : (c.setWr q v).mem = c.mem := rfl
@[simp] theorem Core.setWr_ecc (c : Core) (q v : Nat) : (c.setWr q v).ecc = c.ecc := rfl
@[simp] theorem Core.setWr_fifo (c : Core) (q v : Nat) : (c.setWr q v).fifo = c.fifo := rfl
@[simp] theorem Core.setWr_seq (c : Core) (q v : Nat) : (c.setWr q v).seq = c.seq := rfl
@[simp] theorem Core.setWr_skew (c : Core) (q v : Nat) : (c.setWr q v).skew = c.skew := rfl
@[simp] theorem Core.setWr_stall (c : Core) (q v : Nat) : (c.setWr q v).stall = c.stall := rfl
@[simp] theorem Core.setWr_mxAt (c : Core) (q v : Nat) : (c.setWr q v).mxAt = c.mxAt := rfl
@[simp] theorem Core.setWr_vxAt (c : Core) (q v : Nat) : (c.setWr q v).vxAt = c.vxAt := rfl
@[simp] theorem Core.setWr_sxAt (c : Core) (q v : Nat) : (c.setWr q v).sxAt = c.sxAt := rfl
@[simp] theorem Core.setWr_qxAt (c : Core) (q v : Nat) : (c.setWr q v).qxAt = c.qxAt := rfl
@[simp] theorem Core.setWr_emAt (c : Core) (q v : Nat) : (c.setWr q v).emAt = c.emAt := rfl
@[simp] theorem Core.setWr_wreg (c : Core) (q v : Nat) : (c.setWr q v).wreg = c.wreg := rfl
@[simp] theorem Core.setWr_areg (c : Core) (q v : Nat) : (c.setWr q v).areg = c.areg := rfl
@[simp] theorem Core.setWr_wload (c : Core) (q v : Nat) : (c.setWr q v).wload = c.wload := rfl
@[simp] theorem Core.setWr_aload (c : Core) (q v : Nat) : (c.setWr q v).aload = c.aload := rfl
@[simp] theorem Core.setWr_acc (c : Core) (q v : Nat) : (c.setWr q v).acc = c.acc := rfl
@[simp] theorem Core.setWr_seen (c : Core) (q v : Nat) : (c.setWr q v).seen = c.seen := rfl
@[simp] theorem Core.setWr_mxs (c : Core) (q v : Nat) : (c.setWr q v).mxs = c.mxs := rfl
@[simp] theorem Core.setWr_vxs (c : Core) (q v : Nat) : (c.setWr q v).vxs = c.vxs := rfl
@[simp] theorem Core.setWr_late (c : Core) (q v : Nat) : (c.setWr q v).late = c.late := rfl
@[simp] theorem Core.setWr_slog (c : Core) (q v : Nat) : (c.setWr q v).slog = c.slog := rfl
@[simp] theorem Core.setWr_wlog (c : Core) (q v : Nat) : (c.setWr q v).wlog = c.wlog := rfl
@[simp] theorem Core.setWr_busy (c : Core) (q v : Nat) : (c.setWr q v).busy = c.busy := rfl
@[simp] theorem Core.setWr_rd (c : Core) (q v : Nat) : (c.setWr q v).rd = c.rd := rfl
@[simp] theorem Core.setWr_chan (c : Core) (q v : Nat) : (c.setWr q v).chan = c.chan := rfl
@[simp] theorem Core.setWr_xfers (c : Core) (q v : Nat) : (c.setWr q v).xfers = c.xfers := rfl
@[simp] theorem Core.setWr_gutter (c : Core) (q v : Nat) : (c.setWr q v).gutter = c.gutter := rfl
@[simp] theorem Core.setWr_extU (c : Core) (q v : Nat) : (c.setWr q v).extU = c.extU := rfl
@[simp] theorem Core.setWr_heldTag (c : Core) (q v : Nat) : (c.setWr q v).heldTag = c.heldTag := rfl
@[simp] theorem Core.setWr_zeroUntil (c : Core) (q v : Nat) : (c.setWr q v).zeroUntil = c.zeroUntil := rfl
@[simp] theorem Core.setWr_fid (c : Core) (q v : Nat) : (c.setWr q v).fid = c.fid := rfl
@[simp] theorem Core.setWr_fctr (c : Core) (q v : Nat) : (c.setWr q v).fctr = c.fctr := rfl
@[simp] theorem Core.setWr_evs (c : Core) (q v : Nat) : (c.setWr q v).evs = c.evs := rfl
@[simp] theorem Core.setWr_outs (c : Core) (q v : Nat) : (c.setWr q v).outs = c.outs := rfl
@[simp] theorem Core.setWr_faults (c : Core) (q v : Nat) : (c.setWr q v).faults = c.faults := rfl
@[simp] theorem Core.setWr_form (c : Core) (q v : Nat) : (c.setWr q v).form = c.form := rfl
@[simp] theorem Core.setWr_prods (c : Core) (q v : Nat) : (c.setWr q v).prods = c.prods := rfl
@[simp] theorem Core.setWr_sticky (c : Core) (q v : Nat) : (c.setWr q v).sticky = c.sticky := rfl
@[simp] theorem Core.setWr_clog (c : Core) (q v : Nat) : (c.setWr q v).clog = c.clog := rfl
@[simp] theorem Core.setWr_vxPrev (c : Core) (q v : Nat) : (c.setWr q v).vxPrev = c.vxPrev := rfl
@[simp] theorem Core.setWr_extGo (c : Core) (q v : Nat) : (c.setWr q v).extGo = c.extGo := rfl
@[simp] theorem Core.setWr_kernels (c : Core) (q v : Nat) : (c.setWr q v).kernels = c.kernels := rfl
@[simp] theorem Core.setChan_regs (c : Core) (q : Nat) (l : List Elem) : (c.setChan q l).regs = c.regs := rfl
@[simp] theorem Core.setChan_mem (c : Core) (q : Nat) (l : List Elem) : (c.setChan q l).mem = c.mem := rfl
@[simp] theorem Core.setChan_ecc (c : Core) (q : Nat) (l : List Elem) : (c.setChan q l).ecc = c.ecc := rfl
@[simp] theorem Core.setChan_fifo (c : Core) (q : Nat) (l : List Elem) : (c.setChan q l).fifo = c.fifo := rfl
@[simp] theorem Core.setChan_seq (c : Core) (q : Nat) (l : List Elem) : (c.setChan q l).seq = c.seq := rfl
@[simp] theorem Core.setChan_skew (c : Core) (q : Nat) (l : List Elem) : (c.setChan q l).skew = c.skew := rfl
@[simp] theorem Core.setChan_stall (c : Core) (q : Nat) (l : List Elem) : (c.setChan q l).stall = c.stall := rfl
@[simp] theorem Core.setChan_mxAt (c : Core) (q : Nat) (l : List Elem) : (c.setChan q l).mxAt = c.mxAt := rfl
@[simp] theorem Core.setChan_vxAt (c : Core) (q : Nat) (l : List Elem) : (c.setChan q l).vxAt = c.vxAt := rfl
@[simp] theorem Core.setChan_sxAt (c : Core) (q : Nat) (l : List Elem) : (c.setChan q l).sxAt = c.sxAt := rfl
@[simp] theorem Core.setChan_qxAt (c : Core) (q : Nat) (l : List Elem) : (c.setChan q l).qxAt = c.qxAt := rfl
@[simp] theorem Core.setChan_emAt (c : Core) (q : Nat) (l : List Elem) : (c.setChan q l).emAt = c.emAt := rfl
@[simp] theorem Core.setChan_wreg (c : Core) (q : Nat) (l : List Elem) : (c.setChan q l).wreg = c.wreg := rfl
@[simp] theorem Core.setChan_areg (c : Core) (q : Nat) (l : List Elem) : (c.setChan q l).areg = c.areg := rfl
@[simp] theorem Core.setChan_wload (c : Core) (q : Nat) (l : List Elem) : (c.setChan q l).wload = c.wload := rfl
@[simp] theorem Core.setChan_aload (c : Core) (q : Nat) (l : List Elem) : (c.setChan q l).aload = c.aload := rfl
@[simp] theorem Core.setChan_acc (c : Core) (q : Nat) (l : List Elem) : (c.setChan q l).acc = c.acc := rfl
@[simp] theorem Core.setChan_seen (c : Core) (q : Nat) (l : List Elem) : (c.setChan q l).seen = c.seen := rfl
@[simp] theorem Core.setChan_mxs (c : Core) (q : Nat) (l : List Elem) : (c.setChan q l).mxs = c.mxs := rfl
@[simp] theorem Core.setChan_vxs (c : Core) (q : Nat) (l : List Elem) : (c.setChan q l).vxs = c.vxs := rfl
@[simp] theorem Core.setChan_late (c : Core) (q : Nat) (l : List Elem) : (c.setChan q l).late = c.late := rfl
@[simp] theorem Core.setChan_slog (c : Core) (q : Nat) (l : List Elem) : (c.setChan q l).slog = c.slog := rfl
@[simp] theorem Core.setChan_wlog (c : Core) (q : Nat) (l : List Elem) : (c.setChan q l).wlog = c.wlog := rfl
@[simp] theorem Core.setChan_busy (c : Core) (q : Nat) (l : List Elem) : (c.setChan q l).busy = c.busy := rfl
@[simp] theorem Core.setChan_rd (c : Core) (q : Nat) (l : List Elem) : (c.setChan q l).rd = c.rd := rfl
@[simp] theorem Core.setChan_wr (c : Core) (q : Nat) (l : List Elem) : (c.setChan q l).wr = c.wr := rfl
@[simp] theorem Core.setChan_xfers (c : Core) (q : Nat) (l : List Elem) : (c.setChan q l).xfers = c.xfers := rfl
@[simp] theorem Core.setChan_gutter (c : Core) (q : Nat) (l : List Elem) : (c.setChan q l).gutter = c.gutter := rfl
@[simp] theorem Core.setChan_extU (c : Core) (q : Nat) (l : List Elem) : (c.setChan q l).extU = c.extU := rfl
@[simp] theorem Core.setChan_heldTag (c : Core) (q : Nat) (l : List Elem) : (c.setChan q l).heldTag = c.heldTag := rfl
@[simp] theorem Core.setChan_zeroUntil (c : Core) (q : Nat) (l : List Elem) : (c.setChan q l).zeroUntil = c.zeroUntil := rfl
@[simp] theorem Core.setChan_fid (c : Core) (q : Nat) (l : List Elem) : (c.setChan q l).fid = c.fid := rfl
@[simp] theorem Core.setChan_fctr (c : Core) (q : Nat) (l : List Elem) : (c.setChan q l).fctr = c.fctr := rfl
@[simp] theorem Core.setChan_evs (c : Core) (q : Nat) (l : List Elem) : (c.setChan q l).evs = c.evs := rfl
@[simp] theorem Core.setChan_outs (c : Core) (q : Nat) (l : List Elem) : (c.setChan q l).outs = c.outs := rfl
@[simp] theorem Core.setChan_faults (c : Core) (q : Nat) (l : List Elem) : (c.setChan q l).faults = c.faults := rfl
@[simp] theorem Core.setChan_form (c : Core) (q : Nat) (l : List Elem) : (c.setChan q l).form = c.form := rfl
@[simp] theorem Core.setChan_prods (c : Core) (q : Nat) (l : List Elem) : (c.setChan q l).prods = c.prods := rfl
@[simp] theorem Core.setChan_sticky (c : Core) (q : Nat) (l : List Elem) : (c.setChan q l).sticky = c.sticky := rfl
@[simp] theorem Core.setChan_clog (c : Core) (q : Nat) (l : List Elem) : (c.setChan q l).clog = c.clog := rfl
@[simp] theorem Core.setChan_vxPrev (c : Core) (q : Nat) (l : List Elem) : (c.setChan q l).vxPrev = c.vxPrev := rfl
@[simp] theorem Core.setChan_extGo (c : Core) (q : Nat) (l : List Elem) : (c.setChan q l).extGo = c.extGo := rfl
@[simp] theorem Core.setChan_kernels (c : Core) (q : Nat) (l : List Elem) : (c.setChan q l).kernels = c.kernels := rfl
theorem Core.ev_eq (c : Core) (e i n : Nat) : c.ev e i n = { c with evs := (c.ev e i n).evs } := by unfold Core.ev; split <;> rfl
theorem Core.putEntry_eq (c : Core) (e : SWrite) :
    c.putEntry e = { c with regs := (c.putEntry e).regs, slog := (c.putEntry e).slog } := rfl
theorem Core.qxWrite_eq (c : Core) (i r : Nat) (v : Word) :
    c.qxWrite i r v = { c with regs := (c.qxWrite i r v).regs, slog := (c.qxWrite i r v).slog } := by
  unfold Core.qxWrite
  dsimp only
  split
  · split
    · rfl
    · exact Core.putEntry_eq _ _
  · exact Core.putEntry_eq _ _

@[simp] theorem Core.reg_setReg_same (c : Core) (o : Nat) (w : Word) : (c.setReg o w).reg o = w := by
  simp [Core.reg, Core.setReg]
theorem Core.reg_setReg_other (c : Core) {o p : Nat} (w : Word) (h : p ≠ o) : (c.setReg o w).reg p = c.reg p :=
  Tab.get_set_other _ _ w h
@[simp] theorem Core.qrd_setRd_same (c : Core) (q v : Nat) : (c.setRd q v).qrd q = v := by simp [Core.qrd, Core.setRd]
@[simp] theorem Core.qwr_setWr_same (c : Core) (q v : Nat) : (c.setWr q v).qwr q = v := by simp [Core.qwr, Core.setWr]
@[simp] theorem Core.chanIn_setChan_same (c : Core) (q : Nat) (l : List Elem) : (c.setChan q l).chanIn q = l := by
  simp [Core.chanIn, Core.setChan]

end Sys2Proof.Machine
end

