-- ==== Sys2Proof/Laws/Cores.lean ====
section
/-! SUPPORT. What the operations that commands share can do: a command to a core, an issue, a wait for something due, and a
step of one core. -/
namespace Sys2Proof.Machine

/-- A command to a core that exists has its effect there. -/
theorem onCore_some {u : CoreId} {s : State} {key : Nat} (f : Nat → State) (h : s.key u = some key) :
    onCore u s f = .next (f key) := by simp [onCore, h]

/-- A command to a core that does not exist has no effect. -/
theorem onCore_none {u : CoreId} {s : State} (f : Nat → State) (h : s.key u = none) :
    onCore u s f = .next s := by simp [onCore, h]

/-- It has no other outcome. -/
theorem onCore_cases (u : CoreId) (s : State) (f : Nat → State) :
    (∃ key, s.key u = some key ∧ onCore u s f = .next (f key)) ∨ (s.key u = none ∧ onCore u s f = .next s) := by
  cases h : s.key u with
  | some key => exact .inl ⟨key, rfl, onCore_some f h⟩
  | none => exact .inr ⟨rfl, onCore_none f h⟩

/-- A unit that has issued nothing in the running cycle of a core that is not stalled issues at once. -/
theorem State.issue_now {s : State} {key : Nat} {used : Core → Nat} (f : State → Nat → State)
    (hs : (s.coreAt key).stall = none) (hu : used (s.coreAt key) ≠ (s.coreAt key).rc s.now + 1) :
    s.issue key used f = f s ((s.coreAt key).rc s.now) := by
  have hb : (used (s.coreAt key) == (s.coreAt key).rc s.now + 1) = false := by simpa using hu
  simp [State.issue, hb, hs]

/-- What is due already is done at once. -/
theorem State.whenDue_now {s : State} {cond : State → Bool} (act : State → State) (h : cond s = true) :
    s.whenDue cond act = act s := by
  have : s.waitFor cond (s.left + 1) = s := by simp [State.waitFor, h]
  simp [State.whenDue, this, h]

/-- A step of a core that notes nothing changes that core alone. -/
theorem State.atCore_quiet {s : State} {key : Nat} {f : Core → Core} {c : Core} (h : f (s.coreAt key) = c)
    (he : c.evs = []) (ho : c.outs = []) (hq : c.faults = []) : s.atCore key f = s.setCoreAt key c := by
  cases c
  simp_all [State.atCore, State.setCoreAt]

end Sys2Proof.Machine
end

