-- ==== Sys2Proof/Laws/Memory.lean ====
section
/-! SUPPORT. Every operation that writes a scratchpad, a DRAM stack or the NV die keeps the canonical form of that memory,
and reset's memories have it. -/
namespace Sys2Proof.Machine

/-- A core's memory is canonical. -/
def Core.memWf (c : Core) : Prop := c.mem.wf = true

theorem Core.ev_mem (c : Core) (e i n : Nat) : (c.ev e i n).mem = c.mem := by
  unfold Core.ev; split <;> rfl

/-- Addressed bytes written keep the canonical form. -/
theorem Core.wf_putCells : ∀ (l : List (Nat × Byte)) {m : Memory}, m.wf = true → (Core.putCells m l).wf = true
  | [], _, h => h
  | q :: l, _, h => Core.wf_putCells l (Memory.wf_setByte q.1 q.2 h)

/-- A fold of steps each of which leaves the memory alone leaves it alone. -/
theorem Core.foldl_mem {α : Type} (f : Core → α → Core) (hf : ∀ c a, (f c a).mem = c.mem) :
    ∀ (l : List α) (c : Core), (l.foldl f c).mem = c.mem
  | [], _ => rfl
  | a :: l, c => (Core.foldl_mem f hf l (f c a)).trans (hf c a)

/-- The ECC effect of a write changes no byte (R147). -/
theorem Core.eccWrite_mem (c : Core) (as : List Nat) : (c.eccWrite as).mem = c.mem := by
  unfold Core.eccWrite
  refine Core.foldl_mem _ (fun c e => ?_) _ c
  dsimp only
  split
  · rfl
  · split
    · rfl
    · split
      · exact Core.ev_mem _ _ _ _
      · rfl

/-- A unit's write keeps the canonical form, whether it is served or lost (R141, R145). -/
theorem Core.wf_writeUnit (c : Core) (p unit : Nat) (bs : List (Nat × Byte)) (h : c.memWf) : (c.writeUnit p unit bs).memWf := by
  unfold Core.memWf at *
  unfold Core.writeUnit
  split
  · exact h
  · dsimp only
    split
    · rw [Core.ev_mem]; exact h
    · split
      · rw [Core.ev_mem]; exact Core.wf_putCells _ (Core.wf_putCells _ h)
      · exact Core.wf_putCells _ (Core.wf_putCells _ h)

/-- The end of a cycle settles ECC marks and changes no byte (R147). -/
theorem Core.settleEcc_mem (c : Core) : c.settleEcc.mem = c.mem := by
  unfold Core.settleEcc
  split
  · rfl
  · exact Core.eccWrite_mem _ _

/-- So do the writes of a fold of units. -/
theorem Core.wf_foldl {α : Type} (f : Core → α → Core) (hf : ∀ c a, c.memWf → (f c a).memWf) :
    ∀ (l : List α) (c : Core), c.memWf → (l.foldl f c).memWf
  | [], _, h => h
  | a :: l, c, h => Core.wf_foldl f hf l (f c a) (hf c a h)

theorem Core.wf_writeCells (c : Core) (p : Nat) (bs : List (Nat × Byte)) (h : c.memWf) : (c.writeCells p bs).memWf :=
  Core.wf_foldl _ (fun c u hc => Core.wf_writeUnit c p u _ hc) _ c h

/-- n bytes written through a port keep the canonical form. -/
theorem Core.wf_writeTo (c : Core) (p a : Nat) (bs : List Byte) (h : c.memWf) : (c.writeTo p a bs).memWf :=
  Core.wf_writeCells c p _ h

/-- So do bytes written without a port (R146). -/
theorem Core.wf_pokeBytes (c : Core) (a : Nat) (bs : List Byte) (h : c.memWf) : (c.pokeBytes a bs).memWf := by
  unfold Core.memWf Core.pokeBytes at *
  rw [Core.eccWrite_mem]
  exact Core.wf_putCells _ h

/-! ### DRAM and the NV die -/

theorem State.noteDie_dram (s : State) (d e i n : Nat) : (s.noteDie d e i n).dram = s.dram := by
  unfold State.noteDie; split <;> rfl

theorem State.dramOf_setDram (s : State) (m j : Nat) (x : Dram) :
    (s.setDram m x).dramOf j = if j = m then x else s.dramOf j := by
  unfold State.setDram State.dramOf
  split
  · subst j; exact Tab.get_set_same _ _ _ _
  · exact Tab.get_set_other _ _ _ ‹_›

/-- A write of part of a line keeps the canonical form of every stack (R254). -/
theorem State.wf_dramWrite (s : State) (m line off : Nat) (bs : List Byte) (h : ∀ j, (s.dramOf j).mem.wf = true) (j : Nat) :
    ((s.dramWrite m line off bs).dramOf j).mem.wf = true := by
  unfold State.dramWrite
  split
  · exact h j
  · dsimp only
    have e : ∀ (t : State) (a b c d : Nat), (t.noteDie a b c d).dramOf j = t.dramOf j := by
      intro t a b c d; unfold State.dramOf; rw [State.noteDie_dram]
    rw [e, State.dramOf_setDram]
    split
    · exact Memory.wf_setBytes _ _ (h m)
    · exact h j

/-- The gutter changes no stack. -/
theorem State.gutter_dram (s : State) (kind group gen src : Nat) : (s.gutter kind group gen src).dram = s.dram := by
  have e : ∀ (t : State) (a b c : Nat), (t.noteHub a b c).dram = t.dram := by
    intro t a b c; unfold State.noteHub; split <;> rfl
  unfold State.gutter
  dsimp only
  split <;> simp [e]

/-- Accesses that enter a controller's queue change no stack's bytes (R250). -/
theorem State.enqueueDram_mem (s : State) (m q src : Nat) (rs : List DramReq) (j : Nat) :
    ((s.enqueueDram m q src rs).dramOf j).mem = (s.dramOf j).mem := by
  unfold State.enqueueDram
  induction rs generalizing s with
  | nil => rfl
  | cons r rs ih =>
    rw [List.foldl_cons, ih]
    split
    · unfold State.dramOf; rw [State.gutter_dram]
    · rw [State.dramOf_setDram]
      split
      · subst j; rfl
      · rfl

/-- So does a write of firmware, which waits in the pool's queue. -/
theorem State.dramPut_mem (s : State) (a : Nat) (bs : List Byte) (j : Nat) :
    ((s.dramPut a bs).dramOf j).mem = (s.dramOf j).mem := by
  unfold State.dramPut
  split
  · split
    · rfl
    · exact State.enqueueDram_mem _ _ _ _ _ _
  · rfl

/-- A write of the NV die keeps its canonical form (R405). -/
theorem State.wf_putNv (s : State) (a : Nat) (bs : List Byte) (h : s.boot.nv.wf = true) : (s.putNv a bs).boot.nv.wf = true :=
  Memory.wf_setBytes bs a h

/-! ### Reset -/

/-- After reset every scratchpad, every stack and the NV die are canonical. -/
theorem State.reset_memories :
    (∀ key, (State.reset.coreAt key).memWf) ∧ (∀ m, (State.reset.dramOf m).mem.wf = true) ∧ State.reset.boot.nv.wf = true :=
  ⟨fun _ => rfl, fun _ => rfl, rfl⟩

end Sys2Proof.Machine
end

