-- ==== Sys2Proof/WellFormed.lean ====
section
/-! DEFINITION. Well-formed commands: every operand within the range that the spec gives its field. A command that is not
well-formed is not one that the block's callers can send. -/
namespace Sys2Proof
open Machine

/-- A core-form unit: die 0-3, cluster 0-11, slot 0-15 (R19). -/
def CoreId.wf (u : CoreId) : Bool := decide (u.die < 4) && decide (u.cluster < 12) && decide (u.slot < 16)

/-- Source and destination operands (R105, R193). -/
def VxSrc.wf : VxSrc → Bool
  | .q n => decide (n < 48)
  | .addr p => decide (p < 64)
  | .rep p => decide (p < 64)
  | .bc s => decide (s < 16)
  | .none => true

def VxDst.wf : VxDst → Bool
  | .q n => decide (n < 48)
  | .addr p => decide (p < 64)
  | .none => true

/-- A scalar register or none (R99, R115), and a queue end or none (R107). -/
def optReg (o : Option Nat) : Bool := match o with
  | some n => decide (n < 16)
  | none => true
def optQueue (o : Option Nat) : Bool := match o with
  | some n => decide (n < 48)
  | none => true

/-- The fields of a VX command (R192). -/
def VxCmd.wf (c : VxCmd) : Bool :=
  c.sa.wf && c.sb.wf && c.dst.wf && decide (c.pl < 32) && decide (c.px < 32) && decide (c.py < 32) && optReg c.sc && optQueue c.mq &&
    decide (c.shb < 128) && decide (c.imm < 128)

/-- The fields of an MX command (R189): queue ends in the pairs and fours that their fields name. -/
def MxCmd.wf (c : MxCmd) : Bool :=
  decide (c.mask < 16) && decide (c.qw < 48) && c.qw % 2 == 0 && decide (c.qa < 48) && c.qa % 4 == 0 && decide (c.qo < 48) &&
    c.qo % 4 == 0 && decide (c.pf < 32) && decide (c.ots < 4) && optReg c.sc && decide (c.pa < 32) && decide (c.ptw < 32) &&
    decide (c.pta < 32) && decide (c.psd < 32)

/-- The fields of SX.GO (R195): parameter registers. -/
def optParam (o : Option Nat) : Bool := match o with
  | some n => decide (n < 64)
  | none => true
def SxCmd.wf (c : SxCmd) : Bool := decide (c.pd < 64) && optParam c.ovs && optParam c.ovd

def QxVal.wf : QxVal → Bool
  | .imm _ => true
  | .reg s => decide (s < 16)
def SyncVal.wf : SyncVal → Bool
  | .imm _ => true
  | .reg s => decide (s < 16)

/-- A sync-object reference (R199). -/
def SyncRef.wf : SyncRef → Bool
  | .store d i => decide (d < 4) && decide (i < 32768)
  | .ns g k => decide (g < 4096) && decide (k < 32768)
  | .ptr pn => decide (pn < 64)

def Test.wf (t : Test) : Bool := decide (t.sr < 16)

/-- Messages (R29): a template, a partition, a parameter register that is not P63, a 64-bit tally. -/
def LaunchMsg.wf (m : LaunchMsg) : Bool := decide (m.tmpl < 32) && decide (m.part < 16) && decide (m.tally < 2 ^ 64)
def PatchMsg.wf (m : PatchMsg) : Bool := decide (m.pn < 63)
def PortMsg.wf : PortMsg → Bool
  | .launch m => m.wf
  | .patch m => m.wf
  | .abort _ => true
  | .quiesce _ => true
def HubMsg.wf (m : HubMsg) : Bool := m.body.wf

/-- Lanes of a port, and what IDENT carries (R293). -/
def TrainEvent.wf : TrainEvent → Bool
  | .signal l => decide (l < 512)
  | .locked l => decide (l < 512)
  | .aligned _ => true
  | .ident m p t => decide (m < 64) && decide (p < 24) && decide (t < 4)
  | .measured lat => decide (lat < 65536)

/-- A booking (R286, R290). -/
def Booking.wf (b : Booking) : Bool :=
  decide (b.port < 24) && decide (b.slot < 512) && decide (b.kind < 4) && decide (b.srcp < 24) && decide (b.part < 16)

def RegionReport.wf (r : RegionReport) : Bool := decide (r.tj < 256) && decide (r.dmax < 256) && decide (r.agem < 256)

/-- A fault (R377): its class and the partitions it names. -/
def FaultEvent.wf (f : FaultEvent) : Bool := decide (f.cls < 7) && decide (f.parts < 65536)

def ReqDesc.wf (d : ReqDesc) : Bool := decide (d.inlen < 2 ^ 32) && decide (d.dlrel < 2 ^ 32)

/-- What a binary declares (R368): 1 to 64 completion words. -/
def BatchDecl.wf (d : BatchDecl) : Bool := decide (1 ≤ d.ncmt) && decide (d.ncmt ≤ 64) && decide (d.nullSlot < 2 ^ 32)

/-- An aperture access (R345), of at most the 256 bytes of one operation. -/
def ApertureReq.wf (r : ApertureReq) : Bool :=
  (match r.vf with
    | some p => decide (p < 16) && decide (r.index < 4)
    | none => decide (r.index < 64)) &&
    decide (r.offset < 2 ^ 30) && (match r.write with
    | some bs => decide (1 ≤ bs.length) && decide (bs.length ≤ 256)
    | none => decide (1 ≤ r.len) && decide (r.len ≤ 256))

/-- Is the command well-formed? -/
def Instr.wf (i : Instr) : Bool :=
  match i with
  | .launch u m => u.wf && m.wf
  | .patch u m => u.wf && m.wf
  | .abort u _ | .quiesce u _ | .bundleIssue u | .proofPointResume u | .mxDrain u | .vxBeatWrite u |
      .delayedRegisterWrite u | .sxOperationEmit u | .syncWaitReadReply u _ | .extUAccess u | .syncWatchdog u |
      .progressWatchdog u | .zeroise u _ | .engineTimeCharge u => u.wf
  | .messageDelivery m => match m with | some m => m.wf | none => true
  | .mmaOs u c | .mmaWs u c | .mmaIs u c => u.wf && c.wf
  | .mov u c | .add u c | .sub u c | .mul u c | .mulh u c | .adds u c | .subs u c | .fmaVs u c | .fmaSv u c | .fmaVvd u
      c | .min u c | .max u c | .abs u c | .neg u c | .cmpEq u c | .cmpNe u c | .cmpLt u c | .cmpLe u c | .cmpGt u c |
      .cmpGe u c | .cmpNlt u c | .cmpNle u c | .cmpNgt u c | .cmpNge u c | .sel u c | .and u c | .or u c | .xor u c | .andn
      u c | .shl u c | .shr u c | .sra u c | .cvt u c | .exp2 u c | .log2 u c | .rcp u c | .rsqrt u c | .tanh u c | .sigmoid
      u c | .shufXor u c | .shufRot u c | .shufBc u c | .perm u c | .sred u c | .unpack u c | .packBq u c | .qpack u c |
      .cvtr u c => u.wf && c.wf
  | .sxGo u c => u.wf && c.wf
  | .transferDataArrival _ | .transferSignal _ | .tagReturn _ | .flitAgeDrop | .tokenRefill | .fabricCommitArm |
      .fabricCommit | .heartbeat | .tallyTick _ | .cadenceLoss | .walkStart | .ridgeMarkerCheck _ _ | .timekeeperTakeover |
      .frequencyChange | .ridgeDepthSample _ _ | .ridgeHostFlags _ _ | .depthCommitArm | .depthCommit | .dcyWrite _ |
      .ingestRefill | .flrPf | .perstN _ | .gatewayTakeover | .sharePeriod | .generationChange | .standbyPromotion |
      .inputPowerLoss | .vbatLoss | .resetN _ | .bootSlotChoice | .pendingConfirmation | .rcvVerifyA | .rcvVerifyB |
      .rcvPendA | .rcvPendB | .rcvColdReset | .powerCapWrite _ | .headSignComplete | .snapshotArm _ | .snapshot |
      .dbgChallenge | .bypass | .idcode | .samplePreload _ | .extest | .extestPulse | .extestTrain | .hostLinkUp _ |
      .hostLinkDown | .trstN _ => true
  | .tagGrant die | .channelElementArrival die | .creditReturn die => decide (die < 4)
  | .sli u sd _ | .slih u sd _ | .csrr u sd _ => u.wf && decide (sd < 16)
  | .smov u sd sa | .sext u sd sa _ | .sld u sd sa _ => u.wf && decide (sd < 16) && decide (sa < 16)
  | .sgetp u sd pn => u.wf && decide (sd < 16) && decide (pn < 64)
  | .sadd u sd sa b | .ssub u sd sa b | .smul u sd sa b | .smin u sd sa b | .smax u sd sa b | .sand u sd sa b | .sor u
      sd sa b | .sxor u sd sa b | .sshl u sd sa b | .sshr u sd sa b | .ssra u sd sa b => u.wf && decide (sd < 16) && decide
      (sa < 16) && b.wf
  | .sst u sa sb _ => u.wf && decide (sa < 16) && decide (sb < 16)
  | .csrw u sb _ => u.wf && decide (sb < 16)
  | .qbind u qn pm => u.wf && decide (qn < 48) && decide (pm < 64)
  | .qunbind u qn => u.wf && decide (qn < 48)
  | .signal u r v | .wait u r v => u.wf && r.wf && v.wf
  | .reset u r => u.wf && r.wf
  | .barrierD u group => u.wf && decide (group < 4096)
  | .skip u t n => u.wf && t.wf && decide (1 ≤ n) && decide (n < 256)
  | .endT u t nt nf => u.wf && t.wf && decide (nt < 64) && decide (nf < 64)
  | .syncApply die index => decide (die < 4) && decide (index < 32768)
  | .combiningTake die cluster | .combiningDelivery die cluster => decide (die < 4) && decide (cluster < 12)
  | .dramSlot m => decide (m < 8)
  | .refreshRegimeSwitch m temp => decide (m < 8) && decide (temp < 256)
  | .slotTableLoad m v0 v1 => decide (m < 8) && v0.length == 1024 && v1.length == 1024
  | .codewordReceive p lane syms => decide (p < 24) && decide (lane < 9) && syms.length == 544
  | .flitSlotSend r => decide (r < 24)
  | .flitForward q | .flitEject q => decide (q < 24)
  | .ackFlitSend j | .heartbeatLoss j | .lossConfirmation j | .moduleAdmission j => decide (j < 64)
  | .portTraining p ev => decide (p < 24) && ev.wf
  | .retrain p | .linkFault p _ _ => decide (p < 24)
  | .slotBookingMerge roles l => decide (roles.getD 0 < 2 ^ 24) && l.all Booking.wf
  | .walkSlot slot vals => decide (slot < 64) && vals.length == 64
  | .ridgeAbort phases => phases.length == 6
  | .ridgeBarrier phases => phases.length == 8
  | .regionVoteUpdate rs => rs.length == 53 && rs.all RegionReport.wf
  | .frequencyArbitration r0 r1 => r0.length == 6 && r1.length == 6
  | .droopFault r | .thermalTrip r => decide (r < 53)
  | .alignmentRegain shift phase1 => decide (shift < 256) && phase1.length == 14
  | .powerCapUpdate pin vin _ => decide (pin < 65536) && decide (vin < 65536)
  | .doorbell p c _ | .nop p c | .openS p c | .append p c | .close p c | .roll p c | .requestAccept p c => decide (p <
      16) && decide (c < 3)
  | .ingestFetch desc input => desc.wf && input.length == desc.inlen
  | .recordRetire i => decide (i < 262144)
  | .resultWrite p | .flrVf p | .headSign p | .msixMtimExpiry p | .partitionDefine p _ => decide
      (p < 16)
  | .ringEnableWrite p ring _ => decide (p < 16) && decide (ring < 4)
  | .launchTableFire e | .batchFreeze e | .commit e | .replay e => decide (e < 256)
  | .faultDetect f => f.wf
  | .faultRecheck d k _ _ | .spareSubstitution d k _ _ _ => decide (d < 4) && decide (k < 12)
  | .abortFlit body => body.length == 20
  | .sequencerStep i lost tested spares => decide (i < 16) && decide (lost < 256) && decide (tested < 2 ^ 48) && decide (spares < 2 ^ 48)
  | .mcWatchdog i | .kick i | .mcRestart i => decide (i < 6)
  | .negotiate req | .keyload req | .stage req | .verify req | .activate req | .live req | .restart req | .mailboxAbort
      req | .run req | .mailboxReset req | .mailboxUnknownCmd req => decide (8 ≤ req.length) && decide (req.length ≤ 2048)
  | .travelPublish image hops => image.length == 0x5000 && hops.all (fun h =>
      decide (h.1 < 4096) && decide (1 ≤ h.2.1) && decide (h.2.1 ≤ h.2.2))
  | .groupSectionLoad image => image.length % 16 == 0
  | .groupDescriptorWrite offset _ => decide (0x100000 ≤ offset) && decide (offset < 0x160000) && offset % 4 == 0
  | .queueBindingWrite u n word _ => u.wf && decide (n < 48) && decide (word < 4)
  | .combiningSlotWrite d k n word _ => decide (d < 4) && decide (k < 12) && decide (n < 64) && decide (word < 4)
  | .windowWrite w word _ => decide (w < 256) && decide (word < 4)
  | .tagPartitionWrite d p _ => decide (d < 4) && decide (p < 16)
  | .syncObjectWrite d i _ => decide (d < 4) && decide (i < 32768)
  | .keyRecordForm e key decl => decide (e < 256) && decide (key.conf.length = 48) && decl.wf
  | .dbgUnlock token => token.length == 256
  | .debugStateAccess offset _ => decide (offset < 0x4000000) && offset % 8 == 0
  | .registerWrite _ offset bytes _ => decide (offset < 0x4000000) && (bytes == 4 || bytes == 8) && offset % bytes == 0
  | .apertureAccess r => r.wf
  | .recoveryBar2Access offset write len => decide (offset + ((write.map List.length).getD len) ≤ 0x10000000)

end Sys2Proof
end

