-- ==== Sys2Proof/Tests/Slice0.lean ====
section
/-! SUPPORT. Tests of single commands against the words, numbers and examples of the spec, the ill-formed terms that the
well-formedness check refuses, and for each statement with hypotheses concrete states and operands that meet them. -/
namespace Sys2Proof.Tests
open Sys2Proof Sys2Proof.Machine

/-! ### Small states -/

/-- The core of the tests (physical key 0), and the module after reset with that core. -/
def tu : CoreId := ⟨0, 0, 0⟩
def tcore (c : Core) : State := State.reset.setCoreAt 0 c

/-- Registers of a core and of the module. -/
def cregs (l : List (Nat × Nat)) (c : Core) : Core := l.foldl (fun c p => c.setReg p.1 (BitVec.ofNat 64 p.2)) c
def tregs (l : List (Nat × Nat)) (s : State) : State := l.foldl (fun s p => s.setReg p.1 (BitVec.ofNat 64 p.2)) s

/-- Group 5 with the test core as its only member, launched by partition 0; CD0 and CL0 ready. -/
def tgroup (s : State) : State :=
  tregs [(gdOff 5 0, 2 ^ 63 + 2 ^ 56 + 7 * 2 ^ 48 + 2 ^ 32 + 1), (0x430010, 2 ^ 60 + 2 ^ 49), (0x430018, 1)] s
def tg : UnitId := UnitForm.toId (.group 5)

/-- A bake of group 5 on the test core. -/
def trun : Seq := { run := true, tmpl := 0, gen := 7, group := 5 }

/-! ### Witnesses: messages, bundles and scalar commands -/

def wPatch (c : Core) : State := tgroup (tcore c)
def fixed : Core := cregs [(0x280, 2)] {}

theorem wit_patch (c : Core) (hc : c ∈ [({} : Core), { seq := trun }, fixed]) :
    (wPatch c).key tu = some 0 ∧ still ((wPatch c).coreAt 0) = true ∧ ((wPatch c).coreAt 0).fifo = [] ∧
      (wPatch c).addresses tg = true ∧ (wPatch c).chainTo tu 6 tg = some [0] := by
  fin_cases hc <;> decide
theorem wit_patch_cases :
    ((wPatch { seq := trun }).coreAt 0).seq.run = true ∧
      ((wPatch {}).coreAt 0).seq.run = false ∧ (((wPatch {}).coreAt 0).reg 0x280).getLsbD 62 = false ∧
      ((wPatch fixed).coreAt 0).seq.run = false ∧ (((wPatch fixed).coreAt 0).reg 0x280).getLsbD 1 = true := by decide

def wLaunch : State := tgroup (tcore (cregs [(0x400, 2 ^ 63 + 2 ^ 32)] {}))
def wOwned : State := tgroup (tcore (cregs [(0x298, 3)] {}))

theorem wit_launch : wLaunch.key tu = some 0 ∧ still (wLaunch.coreAt 0) = true ∧ (wLaunch.coreAt 0).fifo = [] ∧
    (wLaunch.coreAt 0).seq.run = false ∧ wLaunch.addresses tg = true ∧ wLaunch.chainTo tu 6 tg = some [0] ∧
    groupOf tg = some 5 ∧ natBit (wLaunch.gdPmask 5) 0 = true ∧ wLaunch.fld 0x430010 (49 + tu.die) (49 + tu.die) = 1 ∧
    wLaunch.fld 0x430018 (12 * tu.die + tu.cluster) (12 * tu.die + tu.cluster) = 1 ∧
    fld ((wLaunch.coreAt 0).reg 0x298) 3 0 = 0 ∧ wLaunch.launchHeld 5 = false ∧ (wLaunch.coreAt 0).ktV 0 = true ∧
    (wLaunch.coreAt 0).ktV 31 = false := by decide
theorem wit_launch_denied : natBit (wLaunch.gdPmask 5) 1 = false ∧
    (tregs [(0x430018, 0)] wLaunch).coreReady tu = false ∧ natBit ((tregs [(0x430018, 0)] wLaunch).gdPmask 5) 0 = true ∧
    ({ wLaunch with unfit := [wLaunch.unitOf tu] } : State).launchHeld 5 = true ∧ wOwned.launchHeld 5 = false ∧
    wOwned.coreReady tu = true ∧ fld ((wOwned.coreAt 0).reg 0x298) 3 0 ≠ 0 ∧ wOwned.key tu = some 0 ∧
    wOwned.addresses tg = true ∧ wOwned.chainTo tu 6 tg = some [0] ∧ natBit (wOwned.gdPmask 5) 0 = true := by decide

def wBake : State := tgroup (tcore { seq := trun })
theorem wit_abort : wBake.key tu = some 0 ∧ clear (wBake.coreAt 0) = true ∧ untraced (wBake.coreAt 0) = true ∧
    (wBake.coreAt 0).fifo = [] ∧ (wBake.coreAt 0).slog = [] ∧ (wBake.coreAt 0).clog = [] ∧ wBake.addresses tg = true ∧
    wBake.chainTo tu 6 tg = some [0] ∧ (wBake.coreAt 0).seq.run = true ∧
    groupOf tg = some (wBake.coreAt 0).seq.group := by decide
theorem wit_abort_idle : wLaunch.key tu = some 0 ∧ clear (wLaunch.coreAt 0) = true ∧ untraced (wLaunch.coreAt 0) = true ∧
    (wLaunch.coreAt 0).fifo = [] ∧ (wLaunch.coreAt 0).slog = [] ∧ (wLaunch.coreAt 0).clog = [] ∧ wLaunch.addresses tg = true ∧ wLaunch.chainTo tu 6 tg = some [0] ∧
    (wLaunch.coreAt 0).seq.run = false := by decide
theorem wit_quiesce_other : groupOf tg = some 5 ∧ ((tgroup (tcore { seq := { trun with group := 6 } })).coreAt 0).seq.group ≠ 5 ∧
    (tgroup (tcore { seq := { trun with group := 6 } })).chainTo tu 6 tg = some [0] := by decide

def wMsg : HubMsg := ⟨some 16384, 0, .patch ⟨tg, 0, 1⟩⟩
theorem wit_message_waits : wMsg.tally = some 16384 ∧ wBake.tally + 2 < 16384 ∧ wBake.fld 0x430010 60 60 = 1 ∧
    wBake.suspended wMsg = false := by decide
theorem wit_message_due : nextHub [⟨wMsg, some 0⟩] = some ⟨wMsg, some 0⟩ ∧ (0 : Nat) ≤ wBake.now := by decide
theorem wit_message_to_core : (⟨none, 0, .patch ⟨wBake.unitOf tu, 0, 1⟩⟩ : HubMsg).tally = none ∧
    (⟨wBake.unitOf tu, 0, 1⟩ : PatchMsg).unit = wBake.unitOf tu := by decide

/-- A VX run that reads its first beat from queue end 0 in running cycle 0; a core on which it waits for a channel. -/
def tVxCmd : VxCmd :=
  { ty := .int8, sa := .q 0, sb := .none, dst := .addr 0, pl := 0, px := 0, sc := none, mq := none, mz := false, shb := 0,
    imm := 0, dty := .int8, rm := .rne, py := 0 }
def tVxRun : VxRun :=
  { op := .mov, cmd := tVxCmd, n := 1, px := 0, py := 0, c0 := 0, cpb := 1, latDep := 0, beats := 1, addrA := 0, addrB := 0,
    addrD := 0, next := 0, leftA := [], leftB := [], leftM := [], status := [], statusOk := true, wait := [], fill := [],
    half := [], halfOk := true, halfPoi := false, written := 0, sat := 0, poi := 0, merge := false, tag := 0, noop := false,
    unpred := false }
def wIssue (vxs : List VxRun) : State :=
  tcore { cregs [(0x400, 2 ^ 63 + 2 ^ 32), (0x1000, 2 ^ 63 + 2 ^ 19)] {} with seq := trun, vxs := vxs }

theorem wit_bundle : (wIssue []).key tu = some 0 ∧ still ((wIssue []).coreAt 0) = true ∧
    untraced ((wIssue []).coreAt 0) = true ∧ ((wIssue []).coreAt 0).hasBundle = true ∧
    ((wIssue []).coreAt 0).seq.skip = 0 ∧ ((wIssue []).coreAt 0).seq.last + ((wIssue []).coreAt 0).bundle.delta ≤ 0 ∧
    ((wIssue []).coreAt 0).bundle.sx = none ∧ ((wIssue []).coreAt 0).bundle.qx = none ∧
    ((wIssue []).coreAt 0).bundle.mx = none ∧ ((wIssue []).coreAt 0).bundle.vx = none ∧ ((wIssue []).coreAt 0).seq.pre = false ∧
    ((wIssue []).coreAt 0).ecc = [] ∧ (wIssue []).nextEmit 0 = none ∧ (wIssue []).lateData 0 0 = false ∧
    ((wIssue []).coreAt 0).needsMet (((wIssue []).setCoreAt 0
      (((wIssue []).coreAt 0).issueMxVx 0 ((wIssue []).coreAt 0).bundle)).cycleNeeds 0 0) = true := by decide
theorem wit_bundle_stalls : (wIssue [tVxRun]).key tu = some 0 ∧ still ((wIssue [tVxRun]).coreAt 0) = true ∧
    ((wIssue [tVxRun]).coreAt 0).hasBundle = true ∧ ((wIssue [tVxRun]).coreAt 0).bundle.sx = none ∧
    ((wIssue [tVxRun]).coreAt 0).bundle.qx = none ∧ ((wIssue [tVxRun]).coreAt 0).needsMet
      (((wIssue [tVxRun]).setCoreAt 0 (((wIssue [tVxRun]).coreAt 0).issueMxVx 0 ((wIssue [tVxRun]).coreAt 0).bundle)).cycleNeeds
        0 0) = false ∧ ((wIssue [tVxRun]).coreAt 0).vxPrev = none := by decide

def tStall (tag : Bool) : Stall :=
  { queues := [], sync := none, tag := tag, emit := false, held := false, since := 0, fresh := true }
theorem wit_resume : (tcore { stall := some (tStall false) }).key tu = some 0 ∧
    clear ((tcore { stall := some (tStall false) }).coreAt 0) = true ∧
    (tcore { stall := some (tStall false) }).causes 0 (tStall false) = [] ∧
    (tcore { stall := some (tStall true) }).causes 0 (tStall true) ≠ [] ∧
    ({ tcore { stall := some (tStall true) } with left := 0 } : State).left = 0 := by decide

theorem wit_scalar : (tcore {}).key tu = some 0 ∧ still ((tcore {}).coreAt 0) = true ∧
    ((tcore {}).coreAt 0).qxAt ≠ ((tcore {}).coreAt 0).rc (tcore {}).now + 1 ∧
    ((tcore {}).coreAt 0).slog.find? (fun e => e.r == 15) = none ∧
    scalarResult ((tcore {}).coreAt 0) (.sli tu 15 0x80000000) = some (tu, 15, 0xFFFFFFFF80000000) ∧
    scalarLater (tcore {}) 0 (.smul tu 15 0 (.imm 3)) = some (tu, 2, .sreg 15 0) := by decide

def wLate (e : LateEff) : Core := { late := [⟨0, 0, e⟩] }
theorem wit_late : ((tcore (wLate (.sreg 3 9))).coreAt 0).dueWrite 0 = some ⟨0, 0, .sreg 3 9⟩ ∧
    still ((tcore (wLate (.sreg 3 9))).coreAt 0) = true ∧
    ((tcore (wLate (.sreg 3 9))).coreAt 0).slog.find? (fun e => e.r == 3) = none ∧
    ((tcore (wLate (.csrw false 0 9))).coreAt 0).dueWrite 0 = some ⟨0, 0, .csrw false 0 9⟩ ∧
    still ((tcore (wLate (.csrw false 0 9))).coreAt 0) = true ∧ (tcore (wLate (.csrw false 0 9))).key tu = some 0 := by decide

/-! ### Witnesses: matrix and vector commands -/

def tMxCmd : MxCmd :=
  { mask := 1, fp := .bq8, qw := 0, qa := 4, qo := 8, wsc := false, asc := false, sel := false, ld := false, ofmt := .fp32,
    pf := 0, ots := 0, sc := none, pa := 0, ptw := 0, pta := 0, psd := 0 }
theorem wit_mx : mxOf (.mmaOs tu tMxCmd) = some (tu, .os, tMxCmd) ∧ still ((tcore {}).coreAt 0) = true ∧
    Core.beforeSx Core.mxAt ((tcore {}).coreAt 0) ≠ ((tcore {}).coreAt 0).rc (tcore {}).now + 1 ∧
    ((tcore {}).coreAt 0).needsMet (((tcore {}).setCoreAt 0 (mxIssue ((tcore {}).coreAt 0) 0 .os tMxCmd false)).cycleNeeds 0 0) = true ∧
    usesLoading ((tcore {}).coreAt 0) 0 .os tMxCmd 0 = false ∧ ((mxRun {} 0 .os tMxCmd false).period ∣ (mxRun {} 0 .os tMxCmd false).steps) := by
  decide

/-- A run of one period with its steps done, at push k of period p; the running cycle is 100. -/
def tMxRun (p k : Nat) (psd : Word) : MxRun :=
  { mxRun (({} : Core).setReg 0 psd) 0 .os tMxCmd false with done := 100, drainP := p, drainK := k }
def wDrain (r : MxRun) : State := { tcore { mxs := [r] } with now := 100 }
theorem wit_drain : (wDrain (tMxRun 0 0 0)).key tu = some 0 ∧ still ((wDrain (tMxRun 0 0 0)).coreAt 0) = true ∧
    ((wDrain (tMxRun 0 0 0)).coreAt 0).mxs = [tMxRun 0 0 0] ∧ nothingRead ((wDrain (tMxRun 0 0 0)).coreAt 0) 100 = true ∧
    (tMxRun 0 0 0).nextPush ≤ 100 ∧
    ((wDrain (tMxRun 0 0 0)).coreAt 0).needsMet (mxPushNeeds ((wDrain (tMxRun 0 0 0)).coreAt 0) (tMxRun 0 0 0)) = true ∧
    (tMxRun 0 0 0).drainK + 1 ≠ (tMxRun 0 0 0).pushes ∧ (tMxRun 0 0 0).drainP ≠ (tMxRun 0 0 0).periods ∧
    (∀ q, q < 48 → ((wDrain (tMxRun 0 0 0)).coreAt 0).qkind q ≠ 1) := by decide
theorem wit_drain_last : nothingRead ((wDrain (tMxRun 0 15 0)).coreAt 0) 100 = true ∧
    (tMxRun 0 15 0).nextPush ≤ 100 ∧ (tMxRun 0 15 0).drainK + 1 = (tMxRun 0 15 0).pushes ∧
    (tMxRun 0 15 0).drainP + 1 = (tMxRun 0 15 0).periods ∧
    ((wDrain (tMxRun 0 15 0)).coreAt 0).needsMet (mxPushNeeds ((wDrain (tMxRun 0 15 0)).coreAt 0) (tMxRun 0 15 0)) = true ∧
    (tMxRun 0 15 1).drainP + 1 ≠ (tMxRun 0 15 1).periods ∧ nothingRead ((wDrain (tMxRun 0 15 1)).coreAt 0) 100 = true ∧
    (tMxRun 0 15 1).nextPush ≤ 100 := by decide

/-- A core whose P0 gives a VX command of one lane from address 0. -/
def wVx : Core := cregs [(0, 1)] {}
def tVxAddr : VxCmd := { tVxCmd with sa := .addr 1 }
theorem wit_vx : vxOf (.mov tu tVxAddr) = some (tu, .mov, tVxAddr) ∧ (tcore wVx).key tu = some 0 ∧
    still ((tcore wVx).coreAt 0) = true ∧ Core.beforeSx Core.vxAt ((tcore wVx).coreAt 0) ≠ ((tcore wVx).coreAt 0).rc (tcore wVx).now + 1 ∧
    ((tcore wVx).coreAt 0).ecc = [] ∧ wVx.vxPrev = none ∧ ({ wVx with vxPrev := some tVxRun } : Core).vxPrev = some tVxRun ∧
    vxReserved wVx .mov tVxAddr = false ∧ ((wVx.p tVxAddr.pl).setWidth 24).toNat ≠ 0 ∧
    vxReserved wVx .mulh { tVxAddr with ty := .fp32 } = true ∧
    (0 : Nat) < tVxRun.c0 + tVxRun.beats * tVxRun.cpb + (tVxRun.latDep - 0) := by decide

/-- A beat of one lane in its write cycle. -/
def tBeat : VxBeat :=
  { k := 0, due := 0, valid := true, a := [7], b := [], mask := [], old := [], side := [], s := 0 }
def wBeat (n : Nat) : VxRun :=
  { tVxRun with n := n, beats := n, cmd := tVxAddr, next := n, wait := [tBeat], addrD := 0x5FFFF }
theorem wit_beat : (tcore { vxs := [wBeat 1] }).key tu = some 0 ∧ still ((tcore { vxs := [wBeat 1] }).coreAt 0) = true ∧
    nothingRead ((tcore { vxs := [wBeat 1] }).coreAt 0) 0 = true ∧
    vxDueRun ((tcore { vxs := [wBeat 1] }).coreAt 0) 0 = some (wBeat 1, tBeat) ∧ (wBeat 1).cmd.dst = .addr 0 ∧
    (vxResult (wBeat 1) tBeat).valid = true ∧ (vxResult (wBeat 1) tBeat).out.bytes = [some 7] ∧
    (wBeat 1).noop = false ∧ (wBeat 1).unpred = false ∧ (wBeat 1).op ≠ .qpack ∧ (wBeat 1).op ≠ .sred ∧
    ((tcore { vxs := [wBeat 1] }).coreAt 0).wlog = [] ∧ (wBeat 1).written + 1 = (wBeat 1).beats ∧ (wBeat 1).addrD + (wBeat 1).dPos tBeat.k + 0 < 0x60000 := by decide
theorem wit_beat_more : (wBeat 2).written + 1 ≠ (wBeat 2).beats ∧ still ((tcore { vxs := [wBeat 2] }).coreAt 0) = true ∧
    nothingRead ((tcore { vxs := [wBeat 2] }).coreAt 0) 0 = true ∧
    vxDueRun ((tcore { vxs := [wBeat 2] }).coreAt 0) 0 = some (wBeat 2, tBeat) ∧
    (vxResult (wBeat 2) tBeat).valid = true ∧ (vxResult (wBeat 2) tBeat).out.bytes.length ≤ 256 := by decide
/-! ### Witnesses: synchronisation and streams -/

/-- A window of space sp for partition 0 of any module, reading and writing the first 2^20 bytes. -/
def twin (sp : Nat) (s : State) : State :=
  tregs [(winOff 0 0, 2 ^ 63 + sp * 2 ^ 60 + 3 * 2 ^ 58 + 2 ^ 51), (winOff 0 2, 2 ^ 20)] s
def tHome (m d : Nat) : Nat := (UnitForm.toId (.die m d)).toNat * 2 ^ 32
def wSync (home : Nat) : State := tregs [(gdOff 5 2, home)] (twin 2 (tgroup (tcore { seq := trun })))

theorem wit_signal : (wSync 0).key tu = some 0 ∧ still ((wSync 0).coreAt 0) = true ∧
    ((wSync 0).coreAt 0).qxAt ≠ ((wSync 0).coreAt 0).rc (wSync 0).now + 1 ∧
    (wSync 0).place ((wSync 0).coreAt 0).p (.ns 5 1) = .none ∧
    (wSync 0).place ((wSync 0).coreAt 0).p (.store 3 32767) = .object 0 3 32767 ∧ (wSync 0).answers 0 = true ∧
    (wSync (tHome 1 2)).place ((wSync 0).coreAt 0).p (.ns 5 1) = .object 1 2 1 ∧ (wSync (tHome 1 2)).answers 1 = false ∧
    (wSync 0).place ((wSync 0).coreAt 0).p (.ptr 0) = .refused 0 0 ∧
    (wSync (tHome 0 3)).nsObject 5 0 = some (0, 3, 0) := by decide
theorem wit_wait : (wSync 0).admits 2 ((wSync 0).coreAt 0).part (wSync 0).me (objOff 0 4) 4 false = true ∧
    (wSync 0).place ((wSync 0).coreAt 0).p (.store 0 4) = .object 0 0 4 ∧
    (tgroup (tcore { seq := trun })).admits 2 0 0 (objOff 0 4) 4 false = false ∧
    ((wSync 0).coreAt 0).syncVal (.imm 0) = 0 ∧ ((wSync 0).coreAt 0).syncVal (.imm 0) ≤ ((wSync 0).obj 0 4).seen 0 ∧
    ((wSync 0).obj 0 4).seen 0 < ((wSync 0).coreAt 0).syncVal (.imm 1) ∧
    (tregs [(winOff 0 2, 2 ^ 54 - 4)] (wSync 0)).place ((wSync 0).coreAt 0).p (.store 1 4) = .object 0 1 4 ∧
    (tregs [(winOff 0 2, 2 ^ 54 - 4)] (wSync 0)).admits 2 0 0 (objOff 1 4) 4 false = true := by decide
def tWaiting : Stall := { tStall false with sync := some (.remote 0 1 4 9 true 0 none) }
theorem wit_reply : (tcore { stall := some tWaiting }).key tu = some 0 ∧
    ((tcore { stall := some tWaiting }).coreAt 0).stall = some tWaiting ∧
    tWaiting.sync = some (.remote 0 1 4 9 true 0 none) ∧ (0 : Nat) ≤ (tcore { stall := some tWaiting }).now := by decide
theorem wit_end : untraced ((wSync 0).coreAt 0) = true ∧ popCount ((wSync 0).gdPmask ((wSync 0).coreAt 0).seq.group) 16 < 2 ∧
    ((wSync 0).coreAt 0).test ⟨0, .all, .eqz⟩ = true ∧ ((wSync 0).coreAt 0).test ⟨0, .all, .nez⟩ = false := by decide

def tMsg (op : SyncOp) : SyncMsg :=
  { due := 0, die := 0, index := 4, op := op, part := 0, src := 0, unit := 0, group := 5, gen := 7 }
def wApply : State := { wSync 0 with syncMsgs := [tMsg (.inc 5), tMsg .reset, { tMsg (.inc 9) with due := 1 }] }
theorem wit_apply : wApply.syncMsgs.filter (fun m => m.die == 0 && m.index == 4 && decide (m.due ≤ wApply.now)) =
      [tMsg (.inc 5), tMsg .reset] ∧
    (∀ m, m ∈ [tMsg (.inc 5), tMsg .reset] → m.due = 0 ∧ (m.op = .reset ∨ m.op = .inc (if m.op = .reset then 0 else 5)) ∧
      (m.op = .reset → (if m.op = .reset then 0 else 5) = 0) ∧ wApply.stale m.group m.gen = false ∧
      wApply.admits 2 m.part m.src (objOff 0 4) 4 true = true) ∧ (wApply.obj 0 4).at_ ≠ wApply.now + 1 ∧ (wApply.obj 0 4).val < 2 ^ 32 ∧
    (∀ m, m ∈ wApply.syncMsgs → m.die = 0 → m.due ≤ wApply.now → m.index = 4) := by decide

/-- A one-dimensional transfer of 2^ELOG bytes an element. -/
def tCtl (elog : Nat) : Word := BitVec.ofNat 64 (elog * 2 ^ 56 + 2 ^ 53)
theorem wit_sxgo : (tcore {}).key tu = some 0 ∧ still ((tcore {}).coreAt 0) = true ∧
    ((tcore {}).coreAt 0).sxAt ≠ ((tcore {}).coreAt 0).rc (tcore {}).now + 1 ∧ nothingRead ((tcore {}).coreAt 0) 0 = true ∧
    ((tcore {}).coreAt 0).ecc = [] ∧ descLegal (tCtl 12) (.glob 0) (.glob (BitVec.ofNat 64 (2 ^ 54))) = true ∧
    ctlSig (tCtl 12) = false ∧ descLegal (tCtl 13) (.glob 0) (.glob 0) = false := by decide

/-- A transfer of one element of 64 bytes between two addresses of the test core's scratchpad, from address 64 to 0. -/
def tXfer (src : Side) : Xfer :=
  { id := 0, btag := 0, c0 := 0, src := src, dst := .glob (BitVec.ofNat 64 (2 ^ 54)), ctl := tCtl 6, dims := [0, 0, 0, 0, 0], elem := 0,
    within := 0, row := none, index := none, rest := [], emitted := 0, open_ := 0, done := false, group := 5, gen := 7,
    part := 0 }
def wEmit (src : Side) (q : Nat) : State :=
  { twin 1 (tcore (cregs [(0x1000, q)] { xfers := [tXfer src] })) with now := 1 }
def tSpad : Side := .glob (BitVec.ofNat 64 (2 ^ 54 + 64))
theorem wit_emit : (wEmit tSpad 0).key tu = some 0 ∧ still ((wEmit tSpad 0).coreAt 0) = true ∧
    ((wEmit tSpad 0).coreAt 0).emAt ≠ ((wEmit tSpad 0).coreAt 0).rc (wEmit tSpad 0).now + 1 ∧
    nothingRead ((wEmit tSpad 0).coreAt 0) 1 = true ∧ (wEmit tSpad 0).emitter 0 1 = some (tXfer tSpad) ∧
    ((wEmit tSpad 0).coreAt 0).needsMet ((wEmit tSpad 0).emitNeeds 0 (tXfer tSpad)) = true ∧ (wEmit tSpad 0).ops = [] ∧
    (wEmit tSpad 0).emitTag 0 tu (tXfer tSpad) = false := by decide
/-- The same transfer to another core of the die needs a tag; the partition's share of the tags is n. -/
def tFar : Xfer := tXfer (.glob 0)
def wTagged (n : Nat) : State :=
  tregs [(tpOff 0 0, n)] { twin 1 (tcore (cregs [] { xfers := [tFar] })) with now := 1 }
theorem wit_emit_tag : (wTagged 0).emitter 0 1 = some tFar ∧ (wTagged 0).emitTag 0 tu tFar = true ∧
    ((wTagged 0).coreAt 0).heldTag = none ∧ (wTagged 0).tagFree 0 tFar.part = false ∧ (wTagged 1).tagFree 0 tFar.part = true ∧
    ((wTagged 0).coreAt 0).forerunner = false ∧ still ((wTagged 0).coreAt 0) = true ∧
    nothingRead ((wTagged 0).coreAt 0) 1 = true ∧ (cregs [(0x290, 2 ^ 63)] {}).forerunner = true := by decide
theorem wit_emit_spad : ctlIdx (tXfer tSpad).ctl = 0 ∧ ctlTc (tXfer tSpad).ctl = false ∧
    ((wEmit tSpad 0).coreAt 0).heldTag = none ∧
    (wEmit tSpad 0).placeAt (BitVec.ofInt 64 ((tXfer tSpad).plan 0).src) = .spad tu 64 64 ∧
    (wEmit tSpad 0).placeAt (BitVec.ofInt 64 ((tXfer tSpad).plan 0).dst) = .spad tu 0 0 ∧
    (wEmit tSpad 0).admits 1 0 (wEmit tSpad 0).me 64 ((tXfer tSpad).plan 0).len false = true ∧
    ((wEmit tSpad 0).coreAt 0).ecc = [] ∧ ((wEmit tSpad 0).coreAt 0).forerunner = false := by decide
theorem wit_emit_stalls : (wEmit (.queue 0) (2 ^ 63)).emitter 0 1 = some (tXfer (.queue 0)) ∧
    ((wEmit (.queue 0) (2 ^ 63)).coreAt 0).needsMet ((wEmit (.queue 0) (2 ^ 63)).emitNeeds 0 (tXfer (.queue 0))) = false ∧
    still ((wEmit (.queue 0) (2 ^ 63)).coreAt 0) = true ∧ nothingRead ((wEmit (.queue 0) (2 ^ 63)).coreAt 0) 1 = true := by
  decide

/-- An operation of that transfer with its data in hand, and one with a tag that is complete. -/
def tOp (stage : OpStage) (tag : Option Nat) : SxOp :=
  { id := 0, btag := 0, key := 0, core := tu, part := 0, group := 5, gen := 7, xfer := 0, s := 0, tc := false, src := tSpad,
    dst := .glob (BitVec.ofNat 64 (2 ^ 54)), len := 2, esize := 64, ends := 1, bubble := false, valid := true,
    data := [1, 2], tag := tag, stage := stage, due := 0, dueRc := none, lines := 0, last := true }
def wArrive (o : SxOp) : State := { twin 1 (tcore {}) with ops := [o] }
theorem wit_arrive : (wArrive (tOp .ready none)).op 0 = some (tOp .ready none) ∧
    still ((wArrive (tOp .ready none)).coreAt 0) = true ∧ (wArrive (tOp .ready none)).opDue (tOp .ready none) = true ∧
    nothingRead ((wArrive (tOp .ready none)).coreAt 0) 0 = true ∧
    (wArrive (tOp .ready none)).placeAt (BitVec.ofNat 64 (2 ^ 54)) = .spad (tOp .ready none).core 0 0 ∧
    (wArrive (tOp .ready none)).admits 1 0 (wArrive (tOp .ready none)).me 0 2 true = true ∧
    (wArrive (tOp .ready (some 3))).opDue (tOp .ready (some 3)) = true ∧
    (wArrive (tOp .ready (some 3))).op 0 = some (tOp .ready (some 3)) := by decide
def tSig (armed onDie : Bool) : XferSig :=
  { id := 0, core := tu, part := 0, group := 5, gen := 7, addr := BitVec.ofNat 64 (2 ^ 55 + 16), inc := 1, tc := false,
    onDie := onDie, mods := [], armed := armed, ridden := false, lastEff := 0 }
theorem wit_transfer_signal : ({ tcore {} with sigs := [tSig false true] } : State).sig 0 = some (tSig false true) ∧
    (tcore {}).sigReady (tSig false true) = false ∧ (tcore {}).sigReady (tSig true true) = true ∧
    (tcore {}).sigCase (tSig true true) ≠ .after ∧ (tcore {}).sigReady (tSig true false) = true ∧
    (tcore {}).sigCase (tSig true false) = .after ∧ (tcore {}).answers (addrMod (tSig true true).addr) = true ∧
    addrSpace (tSig true true).addr = 2 := by decide

theorem wit_tags : ((wTagged 1).tagWaiters 0).find? (fun w => (wTagged 1).tagFree 0 w.2.2) = some (0, 0, 0) ∧
    clear ((wTagged 1).coreAt 0) = true ∧ ((wTagged 0).tagWaiters 0).find? (fun w => (wTagged 0).tagFree 0 w.2.2) = none := by decide
theorem wit_tag_return : (wArrive (tOp .ready (some 3))).op 0 = some (tOp .ready (some 3)) ∧
    (tOp .ready (some 3)).stage ≠ .complete ∧ (wArrive (tOp .complete (some 3))).op 0 = some (tOp .complete (some 3)) := by
  decide
/-- An EXT-U access of the last byte, and a write of the cycle in its sub-bank. -/
def tExt (w : Option (List Byte)) : ExtAcc := ⟨0x5FFFF, 1, w, .host⟩
def wExt (w : Option (List Byte)) : Core := { extU := [tExt w], extGo := 1 }
theorem wit_extu : (tcore (wExt none)).coreAt 0 = wExt none ∧ clear (wExt none) = true ∧ (wExt none).ecc = [] ∧ (wExt none).extGo ≠ 0 ∧
    (wExt none).extFree (tExt none) = true ∧ (wExt (some [7])).extFree (tExt (some [7])) = true ∧ clear (wExt (some [7])) = true ∧
    ({ wExt (some [7]) with wlog := [⟨3, 0x5FFF, []⟩] } : Core).extFree (tExt (some [7])) = false := by decide

/-! ### Witnesses: channels, combining units and memory -/

def tFlight : ChanFlight :=
  { due := 0, die := 0, srcUnit := 0, srcQ := 2, dst := UnitForm.toId (.core 0 0 0 0), dstQ := 1, elem := ⟨true, [1]⟩,
    group := 5, gen := 7 }
def wArrival (w0 : Nat) : State :=
  { tgroup (tcore (cregs [(0x1020, w0), (0x1030, 2)] {})) with flights := [tFlight] }
theorem wit_arrival : (wArrival (2 ^ 63)).nextFlight 0 = some tFlight ∧ UnitForm.ofId tFlight.dst = .core 0 0 0 0 ∧
    (wArrival (2 ^ 63)).key tu = some 0 ∧ ((wArrival (2 ^ 63)).coreAt 0).gutter = [] ∧ (wArrival (2 ^ 63)).stale 5 7 = false ∧
    ((wArrival (2 ^ 63)).coreAt 0).qkind 1 = 2 ∧ ((wArrival (2 ^ 63)).coreAt 0).qpeer 1 = tFlight.srcUnit ∧
    ((wArrival (2 ^ 63)).coreAt 0).qpq 1 = 2 ∧ ((wArrival 0).coreAt 0).qkind 1 ≠ 2 ∧
    (wArrival 0).nextFlight 0 = some tFlight ∧ (wArrival 0).stale 5 7 = false ∧
    ({ wArrival 0 with now := 1 } : State).nextFlight 0 = some tFlight ∧ tFlight.due < ({ wArrival 0 with now := 1 } : State).now := by
  decide
def tCredit : CreditFlight :=
  { due := 0, die := 0, unit := UnitForm.toId (.core 0 0 0 0), q := 1, from_ := 0, fromQ := 2, m := 1 }
def wCredit (w0 : Nat) : State := { tcore (cregs [(0x1020, w0), (0x1030, 2)] {}) with credits := [tCredit] }
theorem wit_credit : (wCredit (3 * 2 ^ 62)).nextCredit 0 = some tCredit ∧ UnitForm.ofId tCredit.unit = .core 0 0 0 0 ∧
    (wCredit (3 * 2 ^ 62)).key tu = some 0 ∧ ((wCredit (3 * 2 ^ 62)).coreAt 0).qkind 1 = 3 ∧
    ((wCredit (3 * 2 ^ 62)).coreAt 0).qpeer 1 = tCredit.from_ ∧ ((wCredit (3 * 2 ^ 62)).coreAt 0).qpq 1 = 2 ∧
    ((wCredit 0).coreAt 0).qkind 1 ≠ 3 ∧ (wCredit 0).nextCredit 0 = some tCredit := by decide

def tSrc : SrcElem := { slot := 63, srcQ := 0, elem := ⟨true, [1]⟩, group := 0, gen := 0 }
def wTake : State :=
  { tregs [(clOff 0 0 (0x2000 + 32 * 63), 2 ^ 63 + 2 ^ 50 + 1)] State.reset with
    slots := [(slotKey 0 0 63, { acc := [0] })], srcBufs := [(bufKey 0 0 0, [tSrc])] }
theorem wit_take : Tab.get zeroN wTake.takeAt (unitKey 0 0) ≠ wTake.now + 1 ∧ wTake.buf 0 0 0 = [tSrc] ∧
    (∀ j, j < 28 → j ≠ 0 → wTake.buf 0 0 j = []) ∧ (wTake.slot 0 0 63).given.length = 28 ∧
    (wTake.slot 0 0 63).acc.length = ((wTake.cmb 0 0 63 0).extractLsb' 50 7).toNat ∧
    (wTake.slot 0 0 63).given.getD 0 0 < cmbValues (wTake.cmb 0 0 63 0) := by decide
def wGive (credits : List Nat) : State :=
  { tregs [(clOff 0 0 (0x2008 + 32 * 63), 3)] State.reset with
    slots := [(slotKey 0 0 63, { out := [⟨true, [1]⟩], credits := credits })] }
theorem wit_give : Tab.get zeroN (wGive (List.replicate 17 1)).giveAt (unitKey 0 0) ≠ (wGive []).now + 1 ∧
    ((wGive (List.replicate 17 1)).slot 0 0 63).out = [⟨true, [1]⟩] ∧
    (∀ j, j < 64 → j ≠ 63 → ((wGive (List.replicate 17 1)).slot 0 0 j).out = []) ∧
    ((wGive []).cmb 0 0 63 1).getLsbD 63 = false ∧
    (∀ l, l < 16 → ((wGive []).cmb 0 0 63 1).getLsbD l = true →
      0 < ((wGive (List.replicate 17 1)).slot 0 0 63).credits.getD l 0) ∧
    ((wGive []).cmb 0 0 63 1).getLsbD 1 = true ∧ ((wGive [1, 0]).slot 0 0 63).credits.getD 1 0 = 0 := by decide

def tReq (w : Option (List Byte)) : DramReq :=
  { ready := 0, line := 1, off := 63, len := 1, write := w, for_ := .host, group := 0, gen := 0, part := 0 }
def wDram (entry : Nat) (x : Dram) : State :=
  ({ tregs [(0x430010, 2 ^ 48), (slotOff 7 0 0, entry)] State.reset with boot := { writable := 16 } } : State).setDram 7 x
theorem wit_dram : (wDram 0xC0 {}).memReady 7 = true ∧ natBit (wDram 0 {}).boot.writable (7 / 2 + 1) = true ∧ (wDram 0xC0 {}).slotEntry 7 0 0 / 64 % 4 = 3 ∧
    (wDram 0x80 {}).slotEntry 7 0 0 / 64 % 4 = 2 ∧ (wDram 0x0F {}).slotEntry 7 0 0 / 64 % 4 = 0 ∧
    (wDram 0x0F {}).slotEntry 7 0 0 % 16 = 15 ∧ (wDram 0x40 {}).slotEntry 7 0 0 / 64 % 4 = 1 ∧
    Tab.get (fun _ => []) (({ queues := [(16, [tReq none])] } : Dram)).queues 16 = [tReq none] ∧
    (wDram 0 {}).fld (memOff 7 0x100) 63 63 = 0 ∧ (max ((wDram 0 {}).dramOf 7).slot (768 * (wDram 0 {}).tally)) = 0 ∧
    ((wDram 0 {}).dramOf 7).ecc = [] ∧ ((wDram 0 {}).dramOf 7).backs = [] ∧ (wDram 0 {}).slotBegun 7 = true ∧
    (wDram 0 {}).cad.stopped = false ∧ (tReq none).ready ≤ (wDram 0 {}).now := by decide
theorem wit_regime : (State.reset.dramOf 0).hotAt = none ∧ State.reset.fld (memOff 0 0x100) 63 63 = 0 ∧
    State.reset.fld (memOff 0 0x100) 55 48 ≤ State.reset.fld (memOff 0 0x100) 15 8 ∧
    State.reset.fld (memOff 0 0x100) 15 8 < 255 ∧ ((wDram 0 { hotAt := some (4, true) }).dramOf 7).hotAt ≠ none := by decide
/-! ### Witnesses: tables, the fabric and the Ridge -/

/-- The reset tables of R249 keep R248, and a table of partition slots alone does not. -/
def tTable (v : Nat) : List Byte := (List.range 1024).map (fun k =>
  if k % 16 = 15 then 0xC0 else if k % 128 < 15 ∨ (v = 1 ∧ k % 128 < 31) then 0x80 else 0x40)
theorem wit_slots : slotsOk ((List.replicate 1024 (0 : Byte)).map (fun b => b.toNat))
    ((List.replicate 1024 (0 : Byte)).map (fun b => b.toNat)) = false := by decide +kernel
theorem wit_slots_ok : slotsOk ((tTable 0).map (fun b => b.toNat)) ((tTable 1).map (fun b => b.toNat)) = true := by
  decide +kernel
def tBook (port slot kind : Nat) : Booking := { port := port, slot := slot, kind := kind, srcp := 31, part := 15 }
def wBook : State := tregs [(fslotOff 1 1 0, 2 ^ 14 + 3)] State.reset
theorem wit_booking_bad : (24 ≤ (tBook 24 0 1).port) ∧ 512 ≤ (tBook 0 512 1).slot ∧
    fsKind (wBook.reg (fslotOff 1 1 0)) = 1 ∧ fsPart (wBook.reg (fslotOff 1 1 0)) ≠ (tBook 1 0 0).part ∧
    ((tBook 0 0 2).kind = 2 ∧ (tBook 0 0 2).port ∈ (tregs [(0x410000, 2 ^ 32)] State.reset).reservePorts) ∧
    23 ∈ ({ State.reset with fab := { State.reset.fab with roles := some (2 ^ 23) } } : State).reservePorts ∧
    (tBook 3 7 1).port = (tBook 3 7 2).port ∧ (tBook 3 7 1).part ≠ ({ tBook 3 7 2 with part := 14 } : Booking).part := by decide
theorem wit_booking : (tBook 23 511 2).port < 24 ∧ (tBook 23 62 2).kind < 4 ∧ (tBook 23 62 2).srcp < 32 ∧
    fsKind (State.reset.reg (fslotOff 1 23 62)) = 0 ∧ 23 ∉ State.reset.reservePorts ∧ State.reset.regs = [] ∧
    (∀ i, i < 8 → fsKind (State.reset.reg (fslotOff 1 23 (64 * i + 63))) = 3) := by decide

/-- Port p is ACTIVE. -/
def tUp (p : Nat) (s : State) : State := tregs [(fpOff p 0, 2 ^ 63 + 0x76543210), (fpOff p 1, 6 * 2 ^ 61 + 0x76543210)] s
def wCode : State :=
  { tUp 23 State.reset with fab := { rxWord := [(23, some ⟨0, [], false⟩)] } }
theorem wit_codeword : wCode.portUp 23 = true ∧ State.reset.portUp 23 = false ∧
    max (Tab.get zeroN wCode.fab.laneC (9 * 23 + 7)) (ceilDiv (40 * wCode.tally - wCode.ll) 20) = 0 ∧
    (List.range 8).find? (fun i => wCode.rxLmap 23 (20 * 0 + wCode.ll) / 2 ^ (4 * i) % 16 == 7) = some 7 ∧
    Tab.get (fun _ => none) wCode.fab.rxWord 23 = some ⟨0, [], false⟩ ∧ Tab.get zeroN wCode.fab.lanes 23 = 0 ∧
    wCode.dropsAt 23 (20 * 0 + wCode.ll) = false ∧ State.reset.mayTrain 23 = false := by decide
theorem gfMulAux_zero (f b : Nat) : gfMulAux f 0 b 0 = 0 := by
  induction f generalizing b with
  | zero => rfl
  | succ f ih => simp [gfMulAux, gfDouble, nxor, ih]
theorem polyAt_zero (n x : Nat) : polyAt (List.replicate n 0) x = 0 := by
  induction n with
  | zero => rfl
  | succ n ih => simpa [polyAt, List.replicate_succ, gfMul, gfMulAux_zero, nxor] using ih
theorem ofSyms_zero (n : Nat) : ofSyms (List.replicate n 0) = 0 := by
  induction n with
  | zero => rfl
  | succ n ih => simpa [ofSyms, List.replicate_succ] using ih
theorem rsDecode_zero (n : Nat) : rsDecode (List.replicate n 0) = some ((List.replicate n 0).take 514, 0) := by
  have h : (rsSyndromes (List.replicate n 0)).all (fun x => x == 0) = true := by
    simp [rsSyndromes, polyAt_zero]
  simp only [rsDecode, h, ↓reduceIte]
theorem padTo_full (n : Nat) (l : List Nat) (h : l.length = n) : padTo 0 n l = l := by
  simp [padTo, h]
/-- The codeword of zeros carries a zero message: the right SEQ word of codeword 0 and the wrong one of codeword 1. -/
theorem wit_codeword_zero : rsDecode (padTo 0 544 ((List.replicate 544 (0 : BitVec 10)).map (fun x => x.toNat))) =
      some (List.replicate 514 0, 0) ∧ ofSyms (List.replicate 514 0) % 2 ^ 20 = 0 % 2 ^ 18 ∧
    ofSyms (List.replicate 514 0) % 2 ^ 20 ≠ 1 % 2 ^ 18 := by
  refine ⟨?_, ?_, ?_⟩
  · rw [List.map_replicate, padTo_full _ _ List.length_replicate]
    exact (rsDecode_zero 544).trans (by rw [List.take_replicate]; rfl)
  · rw [ofSyms_zero]
    decide
  · rw [ofSyms_zero]
    decide

theorem polyAt_padded (l : List Nat) (n x : Nat) (h : polyAt l x = 0) : polyAt (l ++ List.replicate n 0) x = 0 := by
  rw [polyAt] at h
  rw [polyAt, List.foldl_append, h]
  exact polyAt_zero n x
/-- A codeword, eight times the generator polynomial times x^513, whose lane word is a TRAIN word; a port in training receives it. -/
def tTrain : List Nat := (1 :: rsGen).map (gfMul 8) ++ List.replicate 513 0
theorem train_syndromes : (List.range 30).all (fun j => polyAt ((1 :: rsGen).map (gfMul 8)) (gfAlpha j) == 0) = true := by decide +kernel
theorem wit_codeword_train : rsDecode tTrain = some (tTrain.take 514, 0) ∧ ofSyms (tTrain.take 514) % 2 ^ 20 / 2 ^ 18 = 1 ∧
    tTrain.length = 544 ∧ (∀ x, x ∈ tTrain → x < 1024) := by
  refine ⟨?_, by decide +kernel, by decide +kernel, by decide +kernel⟩
  have h : (rsSyndromes tTrain).all (fun x => x == 0) = true := by
    simp only [rsSyndromes, List.all_map, List.all_eq_true, Function.comp, beq_iff_eq]
    intro j hj
    exact polyAt_padded _ _ _ (by simpa using List.all_eq_true.mp train_syndromes j hj)
  simp only [rsDecode, h, ↓reduceIte]

def tFlit : Flit := { emptyFlit with type := 4, cls := 0, group := 5, gen := 7, space := 2, route := 6, part := 0 }
def wSend (k : Nat) : State :=
  { tregs [(fslotOff 0 0 0, k * 2 ^ 14)] (tUp 0 State.reset) with fab := { fw := [⟨1, some 0, 0, tFlit⟩] } }
theorem wit_send : (wSend 2).portUp ((wSend 2).phys 0) = true ∧ max (Tab.get zeroN (wSend 2).fab.next 0) (40 * (wSend 2).tally) = 0 ∧
    fsKind ((wSend 2).fslot 0 0 0) = 2 ∧ (wSend 2).pickThru 0 0 = some 0 ∧ (wSend 2).fab.fw[0]? = some ⟨1, some 0, 0, tFlit⟩ ∧
    fsKind ((wSend 0).fslot 0 0 0) = 0 ∧ (wSend 0).portUp ((wSend 0).phys 0) = true ∧
    ({ wSend 0 with fab := {} } : State).pickFree 0 0 = none ∧ State.reset.portUp (State.reset.phys 0) = false ∧
    State.reset.mayTrain (State.reset.phys 0) = false ∧ (wSend 2).cad.stopped = false ∧ (wSend 2).fslotAt 0 0 = (wSend 2).fslot 0 0 0 ∧
    (wSend 0).fslotAt 0 0 = (wSend 0).fslot 0 0 0 ∧ 0 < 40 * ((wSend 2).tally + 1) := by decide
/-- A flit at port q whose route goes on by hop code 0, of class cls, at a module of topology 1 whose port r forwards
for port q. -/
def wFwd (cls e : Nat) : State :=
  { tregs [(0x410000, 2 ^ 32), (fslotOff 0 20 40, e)] State.reset with
    fab := { rx := [(1, [⟨0, { tFlit with cls := cls, route := 0 }⟩])] } }
theorem wit_forward : (wFwd 1 0).rxHead 1 false = some ⟨0, { tFlit with cls := 1, route := 0 }⟩ ∧
    (wFwd 1 0).tooOld { tFlit with cls := 1, route := 0 } = false ∧
    (bundlePorts (wFwd 0 (2 ^ 15 + 2 ^ 9)).topo ({ tFlit with route := 0 } : Flit).code).1.find? (fun r =>
      fsKind ((wFwd 0 (2 ^ 15 + 2 ^ 9)).fslot 0 r 40) == 2 && fsSrcp ((wFwd 0 (2 ^ 15 + 2 ^ 9)).fslot 0 r 40) == 1 &&
        fsPart ((wFwd 0 (2 ^ 15 + 2 ^ 9)).fslot 0 r 40) == 0) = some 20 ∧
    (wFwd 0 0).rxHead 1 false = some ⟨0, { tFlit with cls := 0, route := 0 }⟩ ∧
    (∀ r, r ∈ (bundlePorts (wFwd 0 0).topo ({ tFlit with route := 0 } : Flit).code).1 →
      fsKind ((wFwd 0 0).fslotAt r 40) ≠ 2) ∧ (wFwd 0 0).stale tFlit.group tFlit.gen = true ∧
    ({ wFwd 0 0 with regs := (tgroup (wFwd 0 0)).regs } : State).stale tFlit.group tFlit.gen = false ∧
    (wFwd 0 (2 ^ 15 + 2 ^ 9)).fslotAt 20 40 = (wFwd 0 (2 ^ 15 + 2 ^ 9)).fslot 0 20 40 ∧
    max (Tab.get zeroN (wFwd 0 0).fab.next 20) (40 * (wFwd 0 0).tally) ≤ 0 + 40 := by decide
def wEject (f : Flit) (gen : Nat) : State :=
  { tregs [(gdOff 5 0, 2 ^ 63 + gen * 2 ^ 48), (mmOff 0 0, 200 * 2 ^ 16)] State.reset with
    now := 63, left := 0, fab := { rx := [(1, [⟨0, f⟩])] } }
theorem wit_eject : (wEject tFlit 6).rxHead 1 true = some ⟨0, tFlit⟩ ∧
    (wEject tFlit 6).ejectDue 1 = true ∧ tFlit.cls = 0 ∧ (wEject tFlit 6).fab.ctlIn = [] ∧ tFlit.grouped = true ∧
    tFlit.srcu ≠ 1023 ∧ (wEject tFlit 6).stale 5 7 = true ∧ (wEject tFlit 7).stale 5 7 = false ∧
    ((wEject tFlit 7).ejectAt 1 ⟨0, tFlit⟩ - 0) % 16777216 ≤ (wEject tFlit 7).tmax (mmOff 0 (wEject tFlit 7).me) ∧
    (wEject { tFlit with type := 7 } 7).ejectDue 1 = true ∧ tFlit.body = [] ∧
    (wEject { tFlit with type := 7, body := [1] } 7).rxHead 1 true = some ⟨0, { tFlit with type := 7, body := [1] }⟩ ∧
    (wEject { tFlit with type := 7, body := [6, 0, 0] } 7).rxHead 1 true = some ⟨0, { tFlit with type := 7, body := [6, 0, 0] }⟩ ∧
    (wEject { tFlit with type := 7 } 7).rxHead 1 true = some ⟨0, { tFlit with type := 7 }⟩ ∧
    Tab.wf (fun _ => []) (wEject tFlit 7).fab.rx = true := by decide

def tAck : Ack := { mod_ := 63, entry := 5, at_ := 0, part := 0, group := 0, gen := 0 }
def wAck (n now : Nat) : State := { State.reset with now := now, fab := { acks := List.replicate n tAck } }
theorem wit_ack : (wAck 55 31).fab.acks.filter (fun x => x.mod_ == 63) = tAck :: List.replicate 54 tAck ∧ 54 + 1 < 56 ∧
    (wAck 55 31).now < tAck.at_ + 32 ∧ (wAck 56 0).fab.acks.filter (fun x => x.mod_ == 63) = tAck :: List.replicate 55 tAck ∧
    (∀ b, b ∈ List.replicate 55 tAck → b.part = tAck.part ∧ b.group = tAck.group ∧ b.gen = tAck.gen) ∧
    tAck.at_ + 32 ≤ (wAck 1 32).now := by decide
theorem wit_tokens : 512 * State.reset.nextFslotFrame < 40 * (State.reset.tally + 1) ∧ State.reset.frameBegun = true ∧
    40 * (({ State.reset with fab := { frame := 1 } } : State).tally + 1) ≤ 512 * ({ State.reset with fab := { frame := 1 } } : State).nextFslotFrame := by
  decide

/-- Port 23 enabled in a training state, its die's outputs released, in cadence lock. -/
def wTrain (st : Nat) : State :=
  { tregs [(fpOff 23 0, 2 ^ 63), (fpOff 23 1, st * 2 ^ 61), (0x410000, 2 ^ 32), (0x430010, 2 ^ 60)] State.reset with
    boot := { outputs := 16 } }
theorem wit_train : State.reset.portEn 23 = false ∧ (wTrain 0).portEn 23 = true ∧ (wTrain 0).portState 23 = 0 ∧
    natBit (wTrain 0).boot.outputs (23 / 6 + 1) = true ∧ (wTrain 0).fld 0x430010 60 60 = 1 ∧
    natBit State.reset.boot.outputs 1 = false ∧ State.reset.fld 0x430010 60 60 = 0 ∧
    popCount 256 9 ≠ 0 ∧ (wTrain 1).portState 23 = 1 ∧ 8 ≤ popCount 255 9 ∧ (wTrain 2).portState 23 = 2 ∧
    (wTrain 3).portState 23 = 3 ∧ (wTrain 4).portState 23 = 4 ∧
    expected (wTrain 4).topo (wTrain 4).me 23 ≠ none ∧ State.reset.topo = 0 ∧ (wTrain 4).topo ≠ 0 ∧ (wTrain 4).mayTrain 23 = true ∧
    (wTrain 5).portState ((wTrain 5).phys 23) ≤ 5 ∧
    (wTrain 5).portState 23 = 5 ∧ (wTrain 6).portUp 23 = true := by decide

def wCommit (ctl at_ : Nat) : State := tregs [(0x410010, at_), (0x410018, ctl)] State.reset
theorem wit_commit : (wCommit 0 1).tally < ((wCommit 0 1).reg 0x410010).toNat ∧
    ((wCommit 0 0).reg 0x410010).toNat ≤ (wCommit 0 0).tally ∧ (wCommit 0 0).fld 0x410018 63 63 = 0 ∧
    (wCommit (2 ^ 63) 0).fld 0x410018 63 63 = 1 := by decide

/-- A module of NMOD modules that is in its walk or aligned: CAD.STAT, PRES and the module's number. -/
def wRidge (stat pres nmod : Nat) : State :=
  { tregs [(0x400010, stat), (0x400040, pres), (0x200000, nmod * 2 ^ 32)] State.reset with cad := { walked := true } }
theorem wit_walk : State.reset.cad.walked = false ∧ natBit State.reset.boot.outputs 7 = false ∧
    ({ State.reset with boot := { outputs := 128 } } : State).fld 0x400010 5 0 = 0 ∧ (wRidge 0 0 1).topoSolo = false ∧ (wRidge 0 15 4).cad.walked = true ∧
    (wRidge 0 15 4).fld 0x400010 61 61 ≠ 1 ∧ ((wRidge 0 15 4).reg 0x400040).toNat = 2 ^ (wRidge 0 15 4).nmod - 1 ∧
    (wRidge 0 15 4).reg 0x400050 = 0 ∧ (wRidge 0 15 4).reg 0x400048 = 0 ∧ (wRidge 0 15 4).fld 0x400010 5 0 < 4 ∧
    (wRidge (2 ^ 58) 0 1).topoSolo = true := by decide
def wAligned (a m : Nat) : State := { wRidge (2 ^ 62 + 3) 15 4 with cad := { walked := true, absent := a, mism := m } }
theorem wit_cadence : (wRidge 0 0 1).topoSolo = false ∧ (wRidge 3 15 4).fld 0x400010 60 60 ≠ 1 ∧
    (wRidge 3 15 4).fld 0x400010 62 62 ≠ 1 ∧ (wRidge 3 15 4).topoSolo = false ∧
    ({ wRidge 3 15 4 with cad := { absent := 2 } } : State).cad.absent = 2 ∧ ({ wRidge 3 15 4 with cad := { mism := 1 } } : State).cad.mism = 1 ∧
    (0 : Nat) + 14 ≤ 2 ^ 56 ∧ ((256 * 13 - 0 + 128) / 256 - 13) % 14 = 0 % 14 ∧ (256 * 13 + 256 - 0 % 256) % 256 = 0 ∧ State.reset.cad.walked = false ∧ (wAligned 2 0).fld 0x400010 60 60 ≠ 1 ∧ (wAligned 2 0).fld 0x400010 62 62 = 1 ∧
    (wAligned 2 0).topoSolo = false ∧ (wAligned 2 0).cad.absent = 2 ∧ (wAligned 0 1).cad.mism = 1 ∧ (wAligned 1 0).cad.absent < 2 ∧
    (0 : BitVec 4).toNat = (wAligned 0 0).tally / 256 / 16 ^ ((wAligned 0 0).tally / 256 % 14) % 16 ∧
    ¬ ((5 : BitVec 4) = 5 ∧ (1 : BitVec 4).toNat = (wAligned 0 0).tally / 256 / 16 ^ ((wAligned 0 0).tally / 256 % 14) % 16) := by
  decide
theorem wit_takeover (n : Nat) (h : n = 4 ∨ n = 64) :
    ({ wRidge (2 ^ 62 + if n = 64 then 32 else 1) 15 n with cad := { absent := 2 } } : State).fld 0x400010 5 0 =
      (if ({ wRidge (2 ^ 62 + if n = 64 then 32 else 1) 15 n with cad := { absent := 2 } } : State).nmod = 64 then 32 else 1) ∧
    ({ wRidge (2 ^ 62 + if n = 64 then 32 else 1) 15 n with cad := { absent := 2 } } : State).fld 0x400010 62 62 = 1 := by
  rcases h with h | h <;> subst h <;> decide
def wShared : State := tregs [(0x400010, 2 ^ 62 + 3)] wBake
theorem wit_ridge_abort : wShared.topoSolo = false ∧ (wShared.coreAt 0).seq.run = true ∧ (wRidge (2 ^ 58) 0 1).topoSolo = true ∧ nibbleSum ([0, 0, 0, 8] : List (BitVec 4)) ≠ 0 ∧ nibbleSum ([0, 1] : List (BitVec 4)) ≠ 0 ∧
    (tregs [(0x400068, 2 ^ 63)] State.reset).fld 0x400068 63 63 = 1 ∧ State.reset.fld 0x400068 63 63 = 0 ∧
    (wBake.coreAt 0).seq.run = true ∧ (wBake.coreAt 0).fifo = [] ∧ (1 : Nat).testBit (wBake.coreAt 0).seq.part = true ∧
    (wBake.coreAt 0).seq.tally < 256 * (wBake.tally / 256) + 16 := by decide

def wFreq (depth : Nat) (at_ : Nat) : State := tregs [(0x400030, depth * 2 ^ 58), (0x400038, at_)] State.reset
theorem wit_frequency : (wAligned 0 0).topoSolo = false ∧ (wAligned 0 0).fld 0x400010 62 62 = 1 ∧
    bitsMsb [true, false, true, false, false, false] = 40 ∧ 40 < bitsMsb [true, false, true, false, false, true] ∧
    ([(0, 64)].filter (fun f => decide (f.1 ≤ State.reset.tally))).getLast? = some (0, 64) ∧ (∀ f, f ∈ State.reset.cad.freqs → State.reset.tally < f.1) ∧
    5 ≤ (wFreq 5 768).fld 0x400030 60 58 ∧ (wFreq 4 768).fld 0x400030 60 58 < 5 ∧ 768 ∣ ((wFreq 4 768).reg 0x400038).toNat ∧
    ¬ 768 ∣ ((wFreq 4 767).reg 0x400038).toNat ∧ (wFreq 4 768).tally < ((wFreq 4 768).reg 0x400038).toNat ∧
    ((wFreq 4 0).reg 0x400038).toNat ≤ (wFreq 4 0).tally := by decide
theorem wit_votes : (wRidge (2 ^ 58) 0 1).topoSolo = true ∧ 16384 ≤ ({ wRidge (2 ^ 58) 0 1 with tally := 16384 } : State).tally ∧ 52 < 53 ∧ 52 ∈ ({ State.reset with cad := { droop := [52] } } : State).cad.droop ∧
    State.reset.fld 0x400028 47 40 < 26 ∧ State.reset.fld 0x400028 63 56 ≤ 100 ∧ 0 < State.reset.fld 0x400028 31 24 ∧
    25 ≤ State.reset.fld 0x400028 47 40 ∧ 99 < State.reset.fld 0x400028 63 56 ∧ State.reset.fld 0x400028 31 24 ≤ 255 := by decide
theorem wit_depth : (5 : Nat) ≤ 5 ∧ ({ State.reset with cad := { depth := some (4, 0) } } : State).cad.depth = some (4, 0) := by decide
def tCap : Word := BitVec.ofNat 64 (2400 * 2 ^ 52 + 1200 * 2 ^ 40 + 72 * 2 ^ 32 + 2 ^ 16 + 2 ^ 8)
theorem wit_power : pcapBad tCap = false ∧ pcapBad 0 = true ∧ State.reset.cad.pcapNext = none ∧
    State.reset.fld 0x400010 62 62 ≠ 1 ∧ (wAligned 0 0).fld 0x400010 62 62 = 1 ∧
    (let s := tregs [(0x400080, tCap.toNat)] State.reset
     s.fld 0x400080 63 52 * ((2401 :: s.cad.pins).take 255 |>.take (s.fld 0x400080 23 16)).length <
       ((2401 :: s.cad.pins).take 255 |>.take (s.fld 0x400080 23 16)).sum ∧ s.fld 0x400080 63 52 = 2400) := by decide
/-! ### Witnesses: faults and recovery -/

theorem wit_heartbeat : State.reset.fld 0x430210 61 59 ≠ 4 ∧ (tregs [(0x430210, 4 * 2 ^ 59)] State.reset).fld 0x430210 61 59 = 4 ∧
    1 ∈ (wTrain 0).neighbours ∧ 63 ∉ (wTrain 0).neighbours ∧ (wBake.coreAt 0).fifo = [] ∧
    (tregs [(0x412030, 2 ^ 31 + 6), (0x412808, 16)] (wTrain 0)).nextAlt 1 ≠ none := by decide
theorem wit_recheck : State.reset.fld (errOff 3 11) 63 63 ≠ 1 ∧
    (tregs [(errOff 3 11, 2 ^ 63)] State.reset).fld (errOff 3 11) 63 63 = 1 ∧
    (tregs [(errOff 3 11, 2 ^ 63)] State.reset).fld (errOff 3 11) 62 62 ≠ 1 ∧
    (tregs [(errOff 3 11, 3 * 2 ^ 62)] State.reset).fld (errOff 3 11) 62 62 = 1 := by decide
theorem wit_resend : (0, tFlit) ∈ ({ State.reset with tally := 256, fab := { sysOut := [(0, { tFlit with cls := 1 }), (0, tFlit)] } } : State).fab.sysOut ∧
    0 + 256 ≤ ({ State.reset with tally := 256 } : State).tally ∧ ({ tFlit with cls := 1 } : Flit).cls ≠ 0 := by decide
/-- A stalled core with a bake; watchdog limits of partition 0; the tally. -/
def wDog (wd tally : Nat) : State :=
  { tregs [(0x1400, wd)] (tcore { stall := some (tStall true), seq := trun }) with tally := tally }
theorem wit_watchdogs : (wDog 5 4).key tu = some 0 ∧ (tcore {}).key tu = some 0 ∧ ((tcore {}).coreAt 0).stall = none ∧
    ((wDog 5 4).coreAt 0).stall = some (tStall true) ∧ ((wDog 5 4).coreAt 0).part = 0 ∧
    (wDog 5 4).tally < (tStall true).since + (wDog 5 4).fld 0x1400 23 0 ∧ 0 < (wDog 5 5).fld 0x1400 23 0 ∧
    (tStall true).since + (wDog 5 5).fld 0x1400 23 0 ≤ (wDog 5 5).tally ∧ (wDog (5 * 2 ^ 40) 5).fld 0x1400 63 40 = 5 ∧
    ((wDog (5 * 2 ^ 40) 5).coreAt 0).seq.run = true ∧
    ((wDog (5 * 2 ^ 40) 5).coreAt 0).seq.tally + (wDog (5 * 2 ^ 40) 5).fld 0x1400 63 40 ≤ (wDog (5 * 2 ^ 40) 5).tally ∧
    (wDog (5 * 2 ^ 40) 4).tally < ((wDog (5 * 2 ^ 40) 4).coreAt 0).seq.tally + (wDog (5 * 2 ^ 40) 4).fld 0x1400 63 40 := by decide
def tAbort (changed : Bool) : AbortRec :=
  { group := 4095, gen := 255, part := 0, frame := 0, cls := 2, hard := false, dmod := 0, tf := 0, unit := 0,
    bakes := [⟨some 255, 1, 0, 0⟩], rcnt := 1, stop := false, changed := changed }
def tLaunch : LaunchRec :=
  { seq := 1, tally := 0, tmpl := 0, group := 4095, part := 0, patches := [], rkd := [], dbg := false }
def wReplay (changed : Bool) (tally : Nat) : State :=
  { State.reset with aborts := [tAbort changed], tally := tally, launches := [(255, [tLaunch])] }
theorem wit_generation : (wReplay false 255).tally < (tAbort false).tg ∧ (tAbort false).changed = false ∧
    (tAbort false).tg ≤ (wReplay false 256).tally ∧ (wReplay false 256).aborts = [tAbort false] ∧
    (wReplay true 256).aborts.find? (fun a => a.changed && !a.stop && a.bakes.any (fun b => b.lte == some 255)) =
      some (tAbort true) ∧
    (wReplay false 256).aborts.find? (fun a => a.changed && !a.stop && a.bakes.any (fun b => b.lte == some 255)) = none ∧
    (Tab.get (fun _ => []) (wReplay true 256).launches 255).filter
      (fun r => ((tAbort true).bakes.filter (fun b => b.lte == some 255)).any (fun b => b.seq == r.seq)) = [tLaunch] := by decide
theorem wit_replay : (wReplay true 256).fld 0x430210 61 59 = 0 ∧ (wReplay true 256).launchHeld 4095 = false ∧
    (wReplay true 256).fld 0x200000 62 62 = 0 ∧ (tAbort true).cls ≠ 4 ∧ (wReplay true 256).cad.droop = [] ∧
    (wReplay true 256).cad.lower = none ∧ (tregs [(0x430210, 4 * 2 ^ 59)] (wReplay true 256)).fld 0x430210 61 59 = 4 ∧
    (tregs [(0x200000, 2 ^ 62)] (wReplay true 256)).fld 0x200000 62 62 = 1 := by decide
def wSpare (w : Nat) : State := tregs [(clOff 3 11 0, w)] (tcore { seq := trun })
theorem wit_spare : (16 : Nat) ≤ (BitVec.setWidth 5 (0x10 : BitVec 64)).toNat ∧
    (BitVec.setWidth 5 (0xF : BitVec 64)).toNat < 16 ∧ ((wSpare (2 ^ 24)).coreAt (physKey 3 11 15)).hasBake = false ∧
    ((wSpare (2 ^ 24)).coreAt (physKey 3 11 16)).hasBake = false ∧ ((wSpare (2 ^ 24)).coreAt (physKey 3 11 0)).hasBake = false ∧
    ((wSpare (2 ^ 24)).coreAt (physKey 0 0 0)).hasBake = true ∧ ((wSpare (2 ^ 24)).reg (clOff 3 11 0)).getLsbD 24 = true ∧
    ((wSpare (2 ^ 24)).reg (clOff 3 11 0)).getLsbD (32 + 15) = false ∧ ((wSpare 0).reg (clOff 3 11 0)).getLsbD 24 = false ∧
    (0x80000F : BitVec 64).getLsbD 23 = true ∧ [1, 3, 4].contains ((wSpare (2 ^ 24)).fld 0x430210 61 59) = false ∧
    [1, 3, 4].contains ((tregs [(0x430210, 4 * 2 ^ 59)] (wSpare (2 ^ 24))).fld 0x430210 61 59) = true := by decide
theorem wit_standby : (tregs [(0x130, 2 ^ 63)] State.reset).fld 0x130 63 62 = 2 ∧ State.reset.fld 0x130 63 62 ≠ 2 ∧
    (wTrain 0).answers 1 = false ∧ (wTrain 0).answers 0 = true ∧ 0 ∈ (wTrain 0).portsTo 1 ∧
    (wTrain 0).phys 0 < 24 ∧ (wTrain 0).fld 0x430010 60 60 = 1 ∧ (wAligned 0 0).fld 0x430010 60 60 = 0 ∧
    (wAligned 0 0).topoSolo = false ∧ (wAligned 0 0).answers 0 = true ∧ State.reset.boot.miss = 0 ∧ State.reset.topoSolo = true := by
  decide

/-! ### Witnesses: requests and batches -/

/-- An active gateway with its rings and streams ready, ring 2 of partition 15 of two entries, and further registers. -/
def wGate (l : List (Nat × Nat)) : State :=
  tregs ([(0x430010, 7 * 2 ^ 61), (0x100, 2 ^ 62 + 2 ^ 61), (rqOff 15 2 1, 2 ^ 63 + 1), (cqOff 15 1, 2 ^ 63 + 1),
    (partOff 15 0, 2 ^ 63 + 2 ^ 62 + 2 ^ 48 + 1)] ++ l) State.reset
theorem wit_doorbell : (wGate []).rings = true ∧ State.reset.rings = false ∧ (wGate []).gwActive = true ∧
    ((wGate []).reg (rqOff 15 2 1)).getLsbD 63 = true ∧ ((wGate []).reg (rqOff 15 2 1)).getLsbD 62 = false ∧
    ((BitVec.toNat (2 : BitVec 32)) + 2 ^ 32 - (wGate []).fld (rqOff 15 2 2) 31 0) % 2 ^ 32 ≤
      2 ^ (BitVec.setWidth 5 ((wGate []).reg (rqOff 15 2 1))).toNat ∧
    2 ^ (BitVec.setWidth 5 ((wGate []).reg (rqOff 15 2 1))).toNat <
      ((BitVec.toNat (3 : BitVec 32)) + 2 ^ 32 - (wGate []).fld (rqOff 15 2 2) 31 0) % 2 ^ 32 := by decide
def wFetch : State := { wGate [(partOff 15 1, 2 ^ 16), (rqOff 15 2 2, 2 ^ 32)] with gate := { vfs := 16 } }
theorem wit_fetch : wFetch.nextRing = some (15, 2) ∧ (wGate []).nextRing = none ∧ wFetch.rings = true ∧ wFetch.gwActive = true ∧
    wFetch.mayFetch 15 2 = true := by decide

/-- A descriptor with an OP word and a handle, fetched from ring 2 of partition 15. -/
def tDesc (opw h : Nat) : ReqDesc :=
  { reqid := 1, handle := BitVec.ofNat 64 h, opw := BitVec.ofNat 64 opw, inaddr := 0, resaddr := 0, inlen := 0, dlrel := 0,
    key := 7 }
def tFetch (opw h : Nat) (done : Option (Nat × Word × Bool)) : Fetched := ⟨15, 2, tDesc opw h, [], done⟩
def wReq (opw h : Nat) (done : Option (Nat × Word × Bool)) (r : StreamRec) : State :=
  { wGate [] with gate := { fetched := [tFetch opw h done], streams := [(0, r)] } }
theorem wit_accept : (wReq 0 0 none {}).fetchedOf 15 2 = [tFetch 0 0 none] ∧ reqBad (tDesc 0 0) = false ∧
    (wReq 0 0 none {}).fetchedOf 14 2 = [] ∧ (wReq 0 0 none {}).gwActive = true ∧
    (tFetch 0 0 (some (0, 0, false))).done = some (0, 0, false) ∧ reqBad (tDesc (5 * 2 ^ 60) 0) = true ∧
    (tFetch 0 0 (some (0, 0, true))).done = some (0, 0, true) ∧ (wReq 0 0 none {}).unmirrored 0 = false ∧
    (wReq 0 0 none {}).mirrorTo = none := by decide
/-- A message with record 9 that the mirror, module 1, has not acknowledged. -/
def wMirror : State :=
  { tregs [(0x130, 2 ^ 62 + 2 ^ 54)] State.reset with
    fab := { sysOut := [(0, { emptyFlit with type := 7, dstmod := 1, body := bytesLE 1 1 ++ bytesLE 9 4 })] } }
theorem wit_mirror : wMirror.mirrorTo = some 1 ∧ wMirror.unmirrored 9 = true ∧ wMirror.unmirrored 8 = false := by decide
def tRec (st cls pend : Nat) : StreamRec :=
  { ctl := BitVec.ofNat 64 (2 ^ 63 + st * 2 ^ 60 + 15 * 2 ^ 56 + cls * 2 ^ 54 + pend * 2 ^ 48 + 3) }
theorem wit_retire : (((wReq 0 0 none (tRec 4 2 0)).stream 0).ctl.extractLsb' 60 3).toNat = 4 ∧
    (((wReq 0 0 none (tRec 1 2 0)).stream 0).ctl.extractLsb' 60 3).toNat ≠ 4 ∧ (wReq 0 0 none (tRec 4 2 0)).gate.appends = [] ∧
    (wReq 0 0 none (tRec 4 2 0)).gate.frozen = [] ∧
    (tregs [(0x110, 2 ^ 42)] (wReq 0 0 none (tRec 4 2 0))).fld 0x110 62 42 ≠ 0 := by decide
def tResult : ResultRec :=
  { part := 15, reqid := 1, handle := 0, status := 0, late := false, pos := 0, audseq := 0, writes := [] }
def wResult (ptr : Nat) : State := { wGate [(cqOff 15 2, ptr)] with gate := { results := [tResult] } }
theorem wit_result : (wResult 0).gate.results.find? (fun r => r.part == 15) = some tResult ∧ (wResult 0).rings = true ∧
    ((wResult 0).reg (cqOff 15 1)).getLsbD 63 = true ∧
    ((wResult 0).fld (cqOff 15 2) 63 32 + 2 ^ 32 - (wResult 0).fld (cqOff 15 2) 31 0) % 2 ^ 32 ≠
      2 ^ (((wResult 0).reg (cqOff 15 1)).setWidth 5).toNat ∧
    ((wResult (2 ^ 33)).fld (cqOff 15 2) 63 32 + 2 ^ 32 - (wResult (2 ^ 33)).fld (cqOff 15 2) 31 0) % 2 ^ 32 =
      2 ^ (((wResult (2 ^ 33)).reg (cqOff 15 1)).setWidth 5).toNat := by decide

/-- Handles of record 0 of module 0 with TGEN 3. -/
def tHandle : Nat := 3 * 2 ^ 16
theorem wit_request (k : Nat) (h : k < 5) : (wReq (k * 2 ^ 60) tHandle none (tRec 1 2 0)).gwActive = true ∧
    (wReq (k * 2 ^ 60) tHandle none (tRec 1 2 0)).streamReady = true ∧
    (wReq (k * 2 ^ 60) tHandle none (tRec 1 2 0)).gate.fetched.find? (fun f => f.part == 15 && f.ring == 2 && f.done.isNone) =
      some (tFetch (k * 2 ^ 60) tHandle none) ∧
    reqBad (tDesc (k * 2 ^ 60) tHandle) = false ∧ reqOp (tDesc (k * 2 ^ 60) tHandle) = k := by
  revert k; decide
theorem wit_open : (wReq (2 ^ 60) 0 none (tRec 1 2 0)).homeHere 0 = true ∧ (wReq (2 ^ 60) 0 none (tRec 1 2 0)).mayOpen 15 = true ∧
    (wReq (2 ^ 60) 0 none (tRec 1 2 0)).freeRecord = some 1 ∧ (wReq (2 ^ 60) 0 none (tRec 1 2 0)).mayOpen 14 = false ∧
    (wReq (2 ^ 60) 0 none (tRec 1 2 0)).primaryGw = 0 ∧
    (tregs [(0x130, 2 ^ 61 + 2 ^ 54)] (wReq (2 ^ 60) 0 none (tRec 1 2 0))).homeHere 1 = true ∧
    ((tDesc (2 ^ 60 + 2 ^ 50) 0).opw.extractLsb' 58 2).toNat = 0 ∧ 1 ≠ (wReq (2 ^ 60) 0 none (tRec 1 2 0)).primaryGw := by decide
theorem wit_append : (wReq (2 * 2 ^ 60) 0 none (tRec 1 2 0)).named 15 0 = .bad ∧
    (wReq (2 * 2 ^ 60) tHandle none (tRec 1 2 0)).named 15 (BitVec.ofNat 64 tHandle) = .here 0 ∧
    ((tRec 1 1 0).ctl.extractLsb' 54 2).toNat ≠ 2 ∧ ((tRec 1 2 0).ctl.extractLsb' 54 2).toNat = 2 ∧
    (wReq (2 * 2 ^ 60) tHandle none (tRec 2 2 0)).appendOpen 0 (BitVec.ofNat 64 tHandle) = true ∧
    (wReq (2 * 2 ^ 60) tHandle none (tRec 1 2 0)).appendOpen 0 (BitVec.ofNat 64 tHandle) = false ∧
    (tRec 1 2 1).ctl.getLsbD 48 = true ∧ (tRec 1 2 0).ctl.getLsbD 48 = false ∧
    (wReq (2 * 2 ^ 60) tHandle none (tRec 1 2 0)).decl 0 = none := by decide
theorem wit_roll : ((tRec 1 2 0).ctl.extractLsb' 60 3).toNat = 1 ∧
    (wReq (4 * 2 ^ 60) tHandle none (tRec 1 2 0)).named 15 (BitVec.ofNat 64 tHandle) = .here 0 ∧
    ({ wReq (4 * 2 ^ 60) tHandle none (tRec 1 2 0) with gate := { (wReq 0 0 none (tRec 1 2 0)).gate with results :=
      [{ tResult with handle := BitVec.ofNat 64 tHandle, audseq := 1 }] } } : State).appendOpen 0 (BitVec.ofNat 64 tHandle) = true ∧
    (wReq (4 * 2 ^ 60) tHandle none (tRec 1 2 0)).mayOpen 15 = true ∧
    (tregs [(partOff 15 0, 2 ^ 63)] (wReq (4 * 2 ^ 60) tHandle none (tRec 1 2 0))).mayOpen 15 = false := by decide
theorem wit_ring_write : (0x8000000000000000 : BitVec 64).getLsbD 63 = true ∧ (wGate []).rings = true ∧
    (wGate []).fld 0x430480 31 31 = 0 := by decide
def wUp (outputs : Nat) : State := { State.reset with boot := { outputs := outputs, released := 1 } }
theorem wit_host_link : natBit (wUp 32).boot.outputs 5 = true ∧ natBit (wUp 32).boot.released 0 = true ∧
    (wUp 32).boot.power = true ∧ natBit (wUp 32).boot.miss 0 = false ∧ natBit (wUp 0).boot.outputs 5 = false := by decide
def wPin (pin n : Nat) (level : Bool) : State := { State.reset with cad := { inputs := [(pin, level, n)] } }
theorem wit_pins : State.reset.fld 0x400850 4 0 ≠ 0 ∧ (tregs [(0x400850, 3 * 2 ^ 6)] State.reset).fld 0x400850 4 0 = 0 ∧
    (wPin 10 2 false).cad.inputs = [(10, false, 2)] ∧ (wPin 0 1 true).cad.inputs = [(0, true, 1)] ∧
    State.reset.fld 0x400878 4 0 ≠ 0 ∧ (tregs [(0x400878, 3 * 2 ^ 6)] State.reset).fld 0x400878 4 0 = 0 := by decide
theorem wit_vfs : wFetch.vfOn 15 = true ∧ (wGate []).vfOn 15 = false ∧ wFetch.totalVfs = 16 := by decide

def tDecl : BatchDecl :=
  { ncmt := 1, inSize := 64, resSize := 64, inLoc := [0, 0], resLoc := [0, 0], nullIn := 0, nullRes := 0, nullSlot := 1,
    stBase := 0, stSize := 64, init := [] }
def tApp : PendApp :=
  { part := 15, idx := 0, handle := BitVec.ofNat 64 tHandle, reqid := 1, resaddr := 0, cls := 2, lte := 255,
    deadline := 2 ^ 64 - 1, order := 0, input := [], hostReset := false }
def tFrozen (seq : Nat) : Frozen :=
  { lte := 255, seq := seq, start := 0, slots := [(0, tApp)], rkd := [], dbg := false }
/-- A frozen batch whose completion words, in empty DRAM, hold SEQ 0. -/
def wCommitted (seq : Nat) : State :=
  { wGate [(ltOff 255 0, 2 ^ 63 + 2 ^ 8), (0x430010, 7 * 2 ^ 61 + 2 ^ 41)] with
    now := 131, left := 0, gate := { streams := [(0, tRec 3 2 0)], decls := [(255, some tDecl)], frozen := [tFrozen seq] } }
theorem wit_batch_commit : (wCommitted 0).oldestFrozen 255 = some (tFrozen 0) ∧ (wCommitted 0).decl 255 = some tDecl ∧
    (wCommitted 0).gwActive = true ∧ (wCommitted 0).streamReady = true ∧ (wCommitted 0).voided (tFrozen 0) = false ∧
    ((wCommitted 0).wordsDone (tFrozen 0) tDecl).1 = true ∧ ((wCommitted 1).wordsDone (tFrozen 1) tDecl).1 = false ∧
    (tFrozen 0).found = none ∧ (wCommitted 0).unmirrored 0 = false ∧ (wCommitted 0).mirrorTo = none ∧
    (wCommitted 0).placeAt (BitVec.ofNat 64 ((wCommitted 0).wordAt 255 1 0 0)) = .dram 0 64 64 ∧
    (wCommitted 0).placeAt ((wCommitted 0).stream 0).resloc = .dram 0 0 0 ∧
    ({ tFrozen 0 with found := some 0 } : Frozen).found = some 0 ∧ (tFrozen 0).start + 68 ≤ 131 ∧
    (tFrozen 0).start + 68 + (wCommitted 0).fld (ltOff 255 7) 31 0 ≤ (wCommitted 0).tickNow ∧
    (wCommitted 0).gate.closing = [] ∧ (wGate []).oldestFrozen 255 = none := by decide
def wModerate (mtim tally : Nat) : State :=
  { wGate [(cqOff 15 1, mtim * 2 ^ 8)] with tally := tally, gate := { unsig := [(15, (1, 0))] } }
theorem wit_moderation : Tab.find (wModerate 1 25).gate.unsig 15 = some (1, 0) ∧ (wModerate 1 25).rings = true ∧
    0 < (wModerate 1 25).fld (cqOff 15 1) 15 8 ∧ 0 + 25 * (wModerate 1 25).fld (cqOff 15 1) 15 8 ≤ (wModerate 1 25).tally ∧
    (wModerate 1 24).tally < 0 + 25 * (wModerate 1 24).fld (cqOff 15 1) 15 8 ∧ (wModerate 0 24).fld (cqOff 15 1) 15 8 = 0 ∧
    Tab.find (wGate []).gate.unsig 15 = none ∧ State.reset.masked none 0 = false ∧
    ({ State.reset with gate := { msix := [(1, 2 ^ 32)] } } : State).masked none 0 = true ∧ (0 : BitVec 64).getLsbD 32 = false := by decide
def wAlt : State :=
  { tregs [(0x100, 2 ^ 63 + 2 ^ 48)] State.reset with fab := { sysIn :=
    [{ emptyFlit with type := 7, srcmod := 1, body := bytesLE 1 1 ++ bytesLE 9 4 }] } }
theorem wit_gw_takeover : wAlt.gwRole = 2 ∧ wAlt.gwActive = false ∧ (wGate []).gwRole ≠ 2 ∧
    wAlt.fab.sysIn.filter (fun f => f.type == 7 && f.srcmod == wAlt.primaryGw) = wAlt.fab.sysIn ∧
    (wAlt.fab.sysIn.head?.map (fun f => f.body.take 5)) = some (bytesLE 1 1 ++ bytesLE 9 4) := by decide

def tAper (w : Option (List Byte)) : ApertureReq := { vf := none, index := 63, offset := 0, write := w, len := 8 }
def wAper (v : Nat) : State := wGate [(0x2000 + 8 * 63, v), (0x430010, 7 * 2 ^ 61 + 2 ^ 41)]
theorem wit_aperture : (wAper 0).apertureReg (tAper none) = some (0x2000 + 8 * 63) ∧ (wAper 0).apertureReg { tAper none with index := 64 } = none ∧
    (wAper 0).apertureReg { tAper none with vf := some 15, index := 0 } = none ∧ wFetch.vfOn 15 = true ∧ (wAper 0).recoveryMode = false ∧
    State.reset.hostReady = false ∧ (wAper 0).hostReady = true ∧ ((wAper 0).reg 0x21F8).getLsbD 63 = false ∧
    ((wAper (2 ^ 63)).reg 0x21F8).getLsbD 63 = true ∧ ((wAper (2 ^ 63)).reg 0x21F8).getLsbD 62 = false ∧
    (wAper (2 ^ 63)).placeAt (BitVec.ofNat 64 ((BitVec.setWidth 33 ((wAper (2 ^ 63)).reg 0x21F8)).toNat * 2 ^ 30 + 0)) = .dram 0 0 0 ∧
    (wAper (2 ^ 63)).memReady 0 = true ∧
    (wAper (2 ^ 63 + 2 ^ 24)).placeAt (BitVec.ofNat 64 (2 ^ 24 * 2 ^ 30)) = .spad tu 0 0 ∧
    (wAper (2 ^ 63 + 2 ^ 24)).key tu = some 0 ∧
    (wAper (2 ^ 63 + 2 ^ 26)).placeAt (BitVec.ofNat 64 (2 ^ 26 * 2 ^ 30)) = .shut 4 0 ∧
    (wAper (3 * 2 ^ 62)).fld 0x108 63 63 = 0 ∧ ((wAper (3 * 2 ^ 62)).reg 0x21F8).getLsbD 62 = true := by decide
/-! ### Witnesses: launches, boot, tables, audit and maps -/

/-- An entry of a group whose NEXT is eight ticks ahead of tally 16376. -/
def wFire (std next : Nat) : State :=
  { wGate [(ltOff 255 0, 2 ^ 63 + std * 2 ^ 62 + 15 * 2 ^ 58 + 5 * 2 ^ 40), (ltOff 255 1, next), (0x430010, 2 ^ 60)] with
    tally := 16376 }
theorem wit_fire : (wFire 0 16384).ltV 255 = true ∧ (wFire 0 16384).partRun ((wFire 0 16384).ltPart 255) = true ∧
    (wFire 0 16384).ltNext 255 = (wFire 0 16384).tally + 8 ∧ (wFire 0 16385).ltNext 255 ≠ (wFire 0 16385).tally + 8 ∧
    (wFire 0 16384).aborts = [] ∧ 16384 ≤ (wFire 0 16384).ltNext 255 ∧ (wFire 0 16384).fld 0x430010 60 60 = 1 ∧
    (wFire 0 16384).fld (ltOff 255 0) 62 62 = 0 ∧ (wFire 1 16384).fld (ltOff 255 0) 62 62 = 1 ∧
    (wFire 0 16384).launchHeld 5 = false ∧ (wFire 0 16384).fld 0x200000 62 62 = 0 ∧
    (tregs [(0x200000, 2 ^ 62)] (wFire 0 16384)).fld 0x200000 62 62 = 1 ∧
    ({ wFire 0 16384 with aborts := [{ tAbort false with group := 5 }] } : State).aborts.map (fun a => a.group) =
      [(wFire 0 16384).ltGroup 255] := by decide
def wFreeze (seq : Nat) : State :=
  { wGate [(ltOff 255 0, 2 ^ 63 + 2 ^ 8)] with
    launches := [(255, [{ tLaunch with seq := seq }])],
    gate := { appends := [tApp], decls := [(255, some tDecl)], frozen := [tFrozen 0] } }
theorem wit_freeze : (wFreeze 1).gwActive = true ∧ (wFreeze 1).decl 255 = some tDecl ∧ 0 < (wFreeze 1).ltSlots 255 ∧
    (Tab.get (fun _ => []) (wFreeze 1).launches 255).find? (fun r => r.tally == (wFreeze 1).tally) = some { tLaunch with seq := 1 } ∧
    (∀ f, f ∈ (wFreeze 1).gate.frozen → f.lte = 255 → f.seq % 2 ≠ 1 % 2) ∧
    placeBatch ((wFreeze 1).ltSlots 255) ((wFreeze 1).fld (ltOff 255 0) 39 24)
      ((wFreeze 1).gate.appends.filter (fun a => a.lte == 255)) = [(0, tApp)] ∧ (wFreeze 1).decl 0 = none := by decide
theorem wit_kernels : ((tcore {}).coreAt 0).kernels = [] ∧ ((tcore { kernels := [(15, 7)] }).coreAt 0).kernels = [(15, 7)] := by decide
theorem wit_share : 262144 ∣ State.reset.tally ∧ ¬ 262144 ∣ ({ State.reset with tally := 1 } : State).tally ∧
    (wGate []).fld (partOff 15 0) 63 63 = 1 ∧ (wGate []).fld (partOff 14 0) 63 63 ≠ 1 := by decide

theorem wit_boot : State.reset.boot.power = true ∧ State.reset.boot.booted = false ∧ State.reset.boot.resetHigh = true ∧
    ({ State.reset with boot := { power := false } } : State).boot.power = false := by decide
theorem wit_boot_empty : State.reset.bootRec.pending = 0 ∧ (State.reset.checkSlot 0).1 = 1 ∧ (State.reset.checkSlot 1).1 = 1 ∧
    (State.reset.checkSlot 2).1 = 1 := by decide
/-- A trial boot whose conditions hold. -/
def wTrial (tally : Nat) : State :=
  { tregs [(0x430000, 2 ^ 61), (0x430010, 63 * 2 ^ 53), (0x430480, 3 * 2 ^ 62)] State.reset with tally := tally }
theorem wit_trial : (wTrial 0).fld 0x430000 61 61 = 1 ∧ (wTrial 0).fld 0x430010 58 53 = 63 ∧
    (wTrial 0).fld 0x430480 63 62 = 3 ∧ (wTrial 14999999999).tally < (wTrial 14999999999).boot.since + 15000000000 ∧
    (wTrial 15000000000).boot.since + 15000000000 ≤ (wTrial 15000000000).tally ∧ State.reset.fld 0x430000 61 61 = 0 := by decide
/-- Sequencer entry 15 next, on a booted module: step and mask. -/
def wSeq (slot w failed : Nat) : State :=
  { tregs [(0x430000, slot * 2 ^ 62), (0x430178, w)] State.reset with boot := { booted := true, next := 15, failed := failed } }
theorem wit_sequencer (step : Nat) (h : step ∈ [1, 3, 4]) :
    (wSeq 0 (2 ^ 63 + step * 2 ^ 60 + 2 ^ 55) 128).boot.booted = true ∧ (wSeq 0 (2 ^ 63 + step * 2 ^ 60 + 2 ^ 55) 128).recoveryMode = false ∧
    ((wSeq 0 (2 ^ 63 + step * 2 ^ 60 + 2 ^ 55) 128).reg (0x430100 + 8 * 15)).getLsbD 63 = true ∧
    (((wSeq 0 (2 ^ 63 + step * 2 ^ 60 + 2 ^ 55) 128).reg (0x430100 + 8 * 15)).extractLsb' 60 3).toNat = step ∧
    (((wSeq 0 (2 ^ 63 + step * 2 ^ 60 + 2 ^ 55) 128).reg (0x430100 + 8 * 15)).extractLsb' 48 8).toNat = 2 ^ 7 ∧
    natBit (wSeq 0 (2 ^ 63 + step * 2 ^ 60 + 2 ^ 55) 128).boot.failed 7 = true := by
  revert step; decide
theorem wit_recovery : (wSeq 2 0 0).recoveryMode = true ∧ (wSeq 0 0 0).recoveryMode = false ∧
    ({ wSeq 2 0 0 with regs := (tregs [(0x430010, 2 ^ 63)] (wSeq 2 0 0)).regs } : State).hostReady = true := by decide
/-- A management core that runs, WDT ms without a kick, and its last restart. -/
def wMc (state wdt t0 tally : Nat) : State :=
  { tregs [(mcOff 5, state * 2 ^ 59 + wdt * 2 ^ 32)] State.reset with tally := tally, boot := { restarts := [(5, t0)] } }
theorem wit_mc : (wMc 2 1 0 0).mcState 5 = 2 ∧ (wMc 4 1 0 0).mcState 5 = 4 ∧ (wMc 0 1 0 0).mcState 5 ≠ 2 ∧
    Tab.find (wMc 2 1 1 25000000).boot.restarts 5 = some 1 ∧ (wMc 2 1 1 25000000).tally < 1 + 25000000 ∧
    1 + 25000000 ≤ (wMc 2 1 1 25000001).tally ∧ 0 < (wMc 2 1 0 25000).fld (mcOff 5) 47 32 ∧
    Tab.get (fun _ => 0) (wMc 2 1 0 25000).boot.kicks 5 + 25000 * (wMc 2 1 0 25000).fld (mcOff 5) 47 32 ≤ (wMc 2 1 0 25000).tally ∧
    (wMc 2 1 0 24999).tally < Tab.get (fun _ => 0) (wMc 2 1 0 24999).boot.kicks 5 + 25000 * (wMc 2 1 0 24999).fld (mcOff 5) 47 32 := by
  decide

/-- A mailbox request of a payload; MC0 runs. -/
def tReqOf (cmd : Nat) (pl : List Byte) : List Byte := bytesLE pl.length 4 ++ [0, 0, 9, BitVec.ofNat 8 cmd] ++ pl
def wMail (slot writable : Nat) : State :=
  { tregs [(0x430000, slot * 2 ^ 62), (0x430010, 2 ^ 53)] State.reset with boot := { booted := true, writable := writable } }
theorem wit_mailbox : (wMail 0 1).mcReady 0 = true ∧ (wMail 0 1).recoveryMode = false ∧ (wMail 2 1).recoveryMode = true ∧
    State.reset.mcReady 0 = false ∧ State.reset.recoveryMode = false ∧ romServes 0x08 = false ∧ (wMail 2 1).mcReady 0 = true ∧
    natLE ((tReqOf 0x20 [5]).take 4) = 1 ∧ natLE ((tReqOf 0x20 []).take 4) ≠ 1 ∧ natLE (slice (tReqOf 0x20 [5]) 6 1) = 9 ∧
    natLE (slice (tReqOf 0x20 [5]) 8 1) = 5 ∧ (∀ p, p < 16 → (wMail 0 1).partRun p = false) ∧ (wGate []).partRun 15 = true ∧
    (wMail 0 1).hubWrites = true ∧ (wMail 0 0).hubWrites = false ∧ (wMail 0 1).placeAt 0 = .dram 0 0 0 ∧ natLE [1] < 2 ∧
    2 ≤ natLE [2] ∧ ((wMail 0 1).checkSlot 1).1 ≠ 0 ∧ natLE [0] = (wMail 0 1).fld 0x430000 63 62 ∧
    natLE [1] ≠ (wMail 0 1).fld 0x430000 63 62 ∧ 6 ≤ natLE [6] ∧ natLE ((tReqOf 0x01 (List.replicate 42 0)).take 4) = 42 ∧
    natLE ((tReqOf 0x10 (List.replicate 16 0)).take 4) = 16 ∧ slotSize 0 < natLE (bytesLE 0x5000001 8) := by decide

/-- A published table whose first entry of die 0 is 10 to 20 die cycles, and images within and outside it. -/
def tImage (min_ : Byte) : List Byte := List.replicate 0x100 0 ++ [min_, 0, 20, 0]
def wTravel (v : Nat) : State := tregs [(0x200000, v * 2 ^ 62), (0x200100, 20 * 2 ^ 16 + 10)] State.reset
theorem wit_travel : (wTravel 2).fld 0x200000 63 62 = 2 ∧ (wTravel 0).fld 0x200000 63 62 ≠ 2 ∧
    (0x100, [0]) ∈ (List.range 576).map (fun i => (0x100 + 4 * i, [i / 144])) ∧
    (wTravel 2).outside 0x100 ((wTravel 2).measured (tImage 10) [] 0x100) = false ∧
    (wTravel 2).outside 0x100 ((wTravel 2).measured (tImage 9) [] 0x100) = true ∧
    [(1, 1, 1)].find? (fun h => h.1 == 64 * 0 + 1) = some (64 * 0 + 1, 1, 1) ∧
    (List.range 48).all (fun i => decide (natLE (slice (List.replicate 0x40 0 ++ [5]) (0x40 + i) 1) % 8 ≤ 4)) = false := by
  decide +kernel
theorem wit_travel_outside : travelOk (tImage 9) (travelEntries.map (fun e => (e.1, e.2, (wTravel 2).measured (tImage 9) [] e.1))) = true ∧
    (0x100, [0]) ∈ travelEntries := by decide +kernel
theorem measured_nothing (s : State) (off : Nat) : s.measured [] [] off = (0, 0) := by
  simp [State.measured, slice, natLE]
theorem wit_travel_keeps (s : State) : travelOk [] (travelEntries.map (fun e => (e.1, e.2, s.measured [] [] e.1))) = true ∧
    ∀ e, e ∈ travelEntries → s.outside e.1 (s.measured [] [] e.1) = false := by
  constructor
  · simp [travelOk, measured_nothing, slice, natLE]
  · intro e _
    simp [measured_nothing, State.outside]
theorem wit_travel_bad (entries : List (Nat × List Nat × Nat × Nat)) :
    travelOk (List.replicate 0x40 0 ++ [5]) entries = false := by
  simp only [travelOk, wit_travel.2.2.2.2.2.2, Bool.false_and]

def tIdle : Core := { fifo := [.launch ⟨tg, 0, 0, 0⟩ 0] }
theorem wit_tables : (wBake).groupBusy 5 = true ∧ wBake.groupBusy 6 = false ∧
    (regList (bytesLE 0x15FFF8 8 ++ bytesLE 0 8)).map (fun e => e.1) = [0x15FFF8] ∧
    (regList (bytesLE 0x160000 8 ++ bytesLE 0 8)).map (fun e => e.1) = [0x160000] ∧
    (tregs [(gdOff 4095 0, 2 ^ 63 + 7 * 2 ^ 60)] State.reset).gdV 4095 = true ∧
    (tregs [(gdOff 4095 0, 2 ^ 63 + 7 * 2 ^ 60)] State.reset).groupOk 4095 = false ∧ (State.reset.slot 3 11 63).idle = true ∧
    (wTake.slot 0 0 63).idle = true ∧ (({ wTake with slots := [(slotKey 0 0 63, { acc := [0], complete := some 0 })] } : State).slot 0 0 63).idle = false := by
  decide
theorem wit_registers : State.reset.fld 0x108 63 63 = 0 ∧ State.reset.hostOpen 0x430000 = false ∧
    (tcore tIdle).key tu = some 0 ∧ ((tcore tIdle).coreAt 0).hasBake = true ∧ ((tcore {}).coreAt 0).hasBake = false ∧
    Tab.w (({ State.reset with halves := [(0x400038, 5)] } : State)).halves 0x400038 = (5 : BitVec 32).setWidth 64 ∧
    32 < ((List.range 16).map (fun q => if q = 15 then 33 else (wGate []).fld (partOff q 0) 47 40)).sum ∧
    ((List.range 16).map (fun q => if q = 15 then 32 else (wGate []).fld (partOff q 0) 47 40)).sum ≤ 32 ∧
    State.reset.fld (partOff 15 0) 63 63 = 0 ∧ (wGate []).fld 0x100 63 62 ≠ 0 ∧ (wGate []).fld (partOff 14 0) 63 63 = 0 ∧
    (0x8000000000000000 : BitVec 64).getLsbD 63 = true := by decide
theorem wit_audit : (tregs [(0x445408, 2 ^ 32)] State.reset).fld 0x445408 63 32 * 2 ^ 20 < 0 + roundUp (2 ^ 20 + 1) 64 ∧
    0 + roundUp 6320 64 ≤ (tregs [(0x445408, 2 ^ 32)] State.reset).fld 0x445408 63 32 * 2 ^ 20 ∧ (wGate []).gwActive = true ∧
    (tregs [(0x100, 0)] State.reset).gwActive = false ∧ (wMail 0 0).mcReady 0 = true ∧
    ({ wMail 0 0 with audit := { signs := [⟨15, 1, 0, []⟩] } } : State).audit.signs = [⟨15, 1, 0, []⟩] ∧
    (tregs [(0x440008, 2 ^ 63)] State.reset).fld 0x440008 63 63 = 1 ∧
    (State.reset.reg 0x440000).toNat ≤ State.reset.tally ∧
    State.reset.tally < ((tregs [(0x440000, 1)] State.reset).reg 0x440000).toNat := by decide
theorem wit_debug : State.reset.recoveryMode = false ∧ State.reset.inScope 0 = false ∧
    (tregs [(0x440010, 2 ^ 63 + 15 * 2 ^ 59)] State.reset).inScope 3 = true ∧ State.reset.tokenOk [] = false ∧
    State.reset.mcReady 0 = false := by decide

/-! ### Witnesses: boot, the mailbox, tables and late effects, further clauses -/

/-- A body of one FABRIC section that sets TOPO = 1. -/
def tBody : List Byte :=
  bytesLE 6 4 ++ bytesLE 0 4 ++ bytesLE 64 4 ++ bytesLE 16 4 ++ List.replicate 48 0 ++ bytesLE 0x410000 8 ++ bytesLE (2 ^ 32) 8
/-- Sequencer entry 15 of a step of domain d, its time limit, and that body. -/
def wStep (step d limit stat : Nat) (topo : Bool) : State :=
  { tregs [(0x430000, 0), (0x430178, 2 ^ 63 + step * 2 ^ 60 + 2 ^ (48 + d) + limit), (0x400010, stat)] State.reset with
    boot := { booted := true, next := 15, body := if topo then tBody else [], nsec := if topo then 1 else 0 } }
theorem wit_steps : imageTopo (wStep 0 7 0 0 true).boot.body (wStep 0 7 0 0 true).boot.nsec ≠ 0 ∧
    imageTopo (wStep 0 7 0 0 false).boot.body (wStep 0 7 0 0 false).boot.nsec = 0 ∧ (wStep 0 7 0 0 true).boot.failed = 0 ∧
    (wStep 0 7 0 0 true).fld 0x400010 63 63 = 0 ∧ (wStep 2 1 0 0 true).fld 0x400010 63 61 ≠ 7 ∧ (wStep 2 1 0 0 true).walkFailed = false ∧
    (wStep 2 4 0 (7 * 2 ^ 61) true).fld 0x400010 63 61 = 7 ∧ (wStep 2 4 0 0 true).boot.miss = 0 ∧
    ((wStep 0 7 9 0 true).reg 0x430178).setWidth 32 = 9#32 ∧ ((wStep 0 7 0 0 true).reg 0x430178).setWidth 32 = 0#32 ∧
    ((wStep 2 4 0 0 true).reg 0x430178).extractLsb' 60 3 = 2#3 ∧ ((wStep 2 4 0 0 true).reg 0x430178).extractLsb' 48 8 = 16#8 ∧
    (wStep 2 4 0 0 true).recoveryMode = false ∧ natBit 128 7 = true := by decide
/-- A management core that loads, and the steps of a LIVE update. -/
def wLoad (state : Nat) (live : Option (Nat × Word × List Nat)) (mail : Option (List Byte)) : State :=
  { tregs [(mcOff 5, state * 2 ^ 59), (mcOff 0, state * 2 ^ 59)] State.reset with
    boot := { loading := [(5, 9)], live := live, mail := mail } }
theorem wit_loading : (wLoad 3 none none).boot.loading = [(5, 9)] ∧ (wLoad 3 none none).boot.live = none ∧
    (wLoad 3 none none).boot.mail = none ∧ (wLoad 3 none none).boot.miss = 0 ∧
    (wLoad 2 (some (1, 9, [4, 3])) none).boot.live = some (1, 9, [4, 3]) ∧ (wLoad 2 none none).mcState (4 + 1) = 2 ∧
    (wLoad 4 none none).mcState (4 + 1) = 4 ∧ (wLoad 2 (some (1, 9, [])) none).boot.live = some (1, 9, []) ∧
    (wLoad 2 none none).mcState 0 = 2 ∧ (wLoad 0 none none).mcReady 0 = false ∧ (wLoad 0 none none).recoveryMode = false ∧
    (wLoad 0 none (some [])).boot.mail ≠ none ∧ Tab.find (wLoad 2 none none).boot.restarts 5 = none ∧
    keyUnwrap State.reset.boot.fuseKey [] = none ∧ State.reset.placeAt (BitVec.ofNat 64 (2 ^ 54)) = .spad tu 0 0 ∧
    (wPin 0 250 false).cad.inputs = [(0, false, 250)] := by decide
/-- A group that passes its checks. A section that spoils it, and one that writes a member entry that names no unit. -/
def wGroup : State := tregs [(gdOff 5 0, 2 ^ 63 + 2 ^ 56 + 1), (gdOff 5 2, tHome 0 0)] State.reset
theorem wit_sections : wGroup.groupOk 5 = true ∧
    (((regList (bytesLE (gdOff 5 0) 8 ++ bytesLE (2 ^ 63 + 7 * 2 ^ 60) 8)).foldl (fun s e => s.writeReg false e.1 e.2)
      wGroup).gdV 5) = true ∧
    (((regList (bytesLE (gdOff 5 0) 8 ++ bytesLE (2 ^ 63 + 7 * 2 ^ 60) 8)).foldl (fun s e => s.writeReg false e.1 e.2)
      wGroup).groupOk 5) = false ∧
    (regList (bytesLE 0x120000 8 ++ bytesLE 1 8)).map (fun e => e.1) = [0x120000] ∧
    ((regList (bytesLE 0x120000 8 ++ bytesLE 1 8)).foldl (fun s e => s.writeReg false e.1 e.2) State.reset).addresses
      (BitVec.ofNat 32 (((regList (bytesLE 0x120000 8 ++ bytesLE 1 8)).foldl (fun s e => s.writeReg false e.1 e.2)
        State.reset).reg 0x120000).toNat) = false ∧ (State.reset.obj 0 0).at_ ≠ State.reset.now + 1 ∧
    ({ State.reset with sync := [(syncKey 0 0, { at_ := 1 })] } : State).obj 0 0 = { at_ := 1 } := by decide
theorem wit_writers : (wGate []).gwRole ≠ 0 ∧ (wGate []).recoveryMode = false ∧ (wGate []).rings = true ∧ (tregs [(0x100, 0)] State.reset).gwRole = 0 ∧
    wFetch.vfOn 15 = true ∧ wFetch.rings = true ∧ (wGate []).vfOn 15 = false ∧ (wSeq 2 0 0).recoveryMode = true ∧
    State.reset.rings = false := by decide
theorem wit_snapshot : (tregs [(0x440008, 2 ^ 63)] State.reset).now = (tregs [(0x440008, 2 ^ 63)] State.reset).tickNow ∧
    (State.reset.reg 0x440000).toNat = State.reset.tally ∧ ({ State.reset with now := 5, left := 0 } : State).now ≠ ({ State.reset with now := 5, left := 0 } : State).tickNow ∧
    (wTrain 0).nmod = 1 ∧ (wAligned 0 0).nmod = 4 ∧ (wAligned 0 0).answers 1 = false := by decide

/-- The late effects of QX commands, each the only one of its core. -/
theorem wit_late_effects : (wLate (.sreg 15 9)).slog = [] ∧ (wLate (.sreg 15 9)).sticky = [] ∧ still (wLate (.sreg 15 9)) = true ∧
    (wLate (.csrw false 0x838 9)).late = [⟨0, 0, .csrw false (0x800 + 8 * 7) 9⟩] ∧
    (wLate (.csrw true 0x27E8 9)).late = [⟨0, 0, .csrw true (0x2000 + 32 * 63 + 8 * 1) 9⟩] ∧
    (wLate (.load 15 0x5FFF8)).ecc = [] ∧ (wLate (.store 0x5FFFF 9)).wlog = [] ∧ (0 : Nat) ≤ (wLate (.sreg 15 9)).rc 0 ∧
    (wLate (.bind 47 (2 ^ 62) none)).late = [⟨0, 0, .bind 47 (2 ^ 62) none⟩] ∧
    ((2 ^ 62 : BitVec 64).extractLsb' 62 2 = 1) ∧ ((2 ^ 63 : BitVec 64).extractLsb' 62 2 = 2) ∧
    ((3 * 2 ^ 62 : BitVec 64).extractLsb' 62 2 = 3) ∧ ((0x80000000 : BitVec 32).extractLsb' 30 2 = 2) ∧
    ((0x40000000 : BitVec 32).extractLsb' 30 2 = 1) := by decide +kernel
/-- A run of one array whose drain holds its lanes, and a ring of slots of 16 bytes for them. -/
def tHold : Draining := { period := 0, arr := 0, valid := true, lanes := List.replicate 64 {} }
def tMxHeld : MxRun := { tMxRun 0 15 0 with hold := [tHold] }
def wRing : State := { tcore (cregs [(0x1000 + 32 * 8, 2 ^ 62 + 4 * 2 ^ 32 + 16 * 2 ^ 19)] { mxs := [tMxHeld] }) with now := 100 }
theorem wit_ring : nothingRead (wRing.coreAt 0) 100 = true ∧ (wRing.coreAt 0).mxs = [tMxHeld] ∧ tMxHeld.nextPush ≤ 100 ∧
    tMxHeld.noop = false ∧ tMxHeld.unpred = [] ∧ tMxHeld.arrays = [0] ∧ tMxHeld.cmd.ofmt = .fp32 ∧ (wRing.coreAt 0).qkind 8 = 1 ∧
    (wRing.coreAt 0).qbad 8 = false ∧ (wRing.coreAt 0).qesize 8 = 4 * outBytes .fp32 ∧ (wRing.coreAt 0).wlog = [] ∧
    tMxHeld.hold.find? (fun x => x.period == tMxHeld.drainP && x.arr == 0) = some tHold ∧ still (wRing.coreAt 0) = true ∧
    (wRing.coreAt 0).rc wRing.now = 100 := by decide

/-! ### The examples and numbers of the spec -/

/-- The UnitIDs worked out below R22. -/
theorem test_unit_ids : UnitForm.ofId 0x0B3AC000 = .core 5 2 7 11 ∧ UnitForm.ofId 0x0B3FC000 = .cluster 5 2 7 ∧
    UnitForm.ofId 0x0B7FC000 = .die 5 2 ∧ UnitForm.ofId 0x0A77C000 = .module 5 ∧ UnitForm.ofId 0x800002A5 = .group 0x2A5 ∧
    UnitForm.toId (.core 5 2 7 11) = 0x0B3AC000 ∧ UnitForm.toId (.cluster 5 2 7) = 0x0B3FC000 ∧
    UnitForm.toId (.die 5 2) = 0x0B7FC000 ∧ UnitForm.toId (.module 5) = 0x0A77C000 ∧ UnitForm.toId (.group 0x2A5) = 0x800002A5 := by
  decide
/-- A UnitID that names nothing (R19, R20): a cluster of 12, a slot of 16, a reserved bit. -/
theorem test_unit_ids_bad : UnitForm.ofId 0x00600000 = .bad ∧ UnitForm.ofId 0x00040000 = .bad ∧ UnitForm.ofId 1 = .bad ∧
    UnitForm.ofId 0x80001000 = .bad := by decide
/-- P63 of the core of the example below R31: module 9, die 3, cluster 5, slot 14. -/
theorem test_p63 : p63Of [14, 5, 3, 9] = 0x400000024030140E := by decide
/-- The example below R33: 40 elements over four members, SPLIT = 1 and GRAN = 8; rows with SPLIT = 2, ROWLEN = 64, GRAN = 2. -/
theorem test_split : (List.range 40).filter (fun j => (memberOf 1 8 1 4 j).1 == 0) =
      [0, 1, 2, 3, 4, 5, 6, 7, 32, 33, 34, 35, 36, 37, 38, 39] ∧ memberOf 1 8 1 4 32 = (0, 8) ∧ (memberOf 1 8 1 4 31).1 = 3 ∧
    (memberOf 2 2 64 4 (64 * 2)).1 = 1 ∧ (memberOf 2 2 64 4 (64 * 8)).1 = 0 ∧ (memberOf 2 2 64 4 (64 * 7 + 63)).1 = 3 := by decide
/-- R37: slot 3 is fused off and slot 5 replaced by the spare. -/
theorem test_spare_map : physOf (BitVec.ofNat 64 (2 ^ 35 + 2 ^ 23 + 5)) 2 = some 2 ∧
    physOf (BitVec.ofNat 64 (2 ^ 35 + 2 ^ 23 + 5)) 3 = some 4 ∧ physOf (BitVec.ofNat 64 (2 ^ 35 + 2 ^ 23 + 5)) 4 = some 16 ∧
    physOf (BitVec.ofNat 64 (2 ^ 35 + 2 ^ 23 + 5)) 15 = none := by decide

/-- The BQ2 block of the example below R61: header 0x7F00 and code byte 0xE4. -/
theorem test_block_codes : (Header.ofNat 0x7F00).e = 127 ∧ (Header.ofNat 0x7F00).ocnt = 0 ∧ (Header.ofNat 0x7F00).pz = false ∧
    [0xE4 % 4, 0xE4 / 4 % 4, 0xE4 / 16 % 4, 0xE4 / 64].map (BqFmt.codeVal .bq2 false) = [0, 1, -2, -1] := by decide
/-- The activations of the block worked end to end: multiples of 1/16. -/
def tActs : List FVal :=
  ([8, -26, 5, 596, 0, -2, 14, 24, -12, 10] ++ List.replicate 22 1).map (fun (n : Int) =>
    FVal.fin (decide (n < 0)) n.natAbs (-4))
/-- QPACK of that block: BQ4, OSH = 4, NOUT = 1, TS = 2 and RSEL = 0. Header 0x7D50, then the codes of the table. -/
theorem test_qpack_block :
    (qpack { osh := 4, rsel := 0, nout := 1, u := false, ts := 2, fmt := .bq4 } (.fin false 1 0) tActs).block.take 7 =
      [0x50, 0x7D, 0xA2, 0x01, 0x00, 0x64, 0x2D] := by decide +kernel
/-- The CVTR example below R136: V = 762, A = -2 and scales of 1.0 give 190.5 in FP32. -/
theorem test_cvtr : (laneCvtr .fp32 0 (cvtrScale 0x7FE 0x3F803F80) false false 762).bits = 0x433E8000 := by decide
/-- The bank of address 0x1_2345 (R140), and the near and far halves (R144). -/
theorem test_banks : bankOf 0x12345 = 1 ∧ subBank (0x12345 / 16) = 1 * 6 + 1 ∧
    (List.range 2).map (fun i => farBit (0x3F00 + 0x100 * i)) = [false, false] ∧
    (List.range 2).map (fun i => farBit (0x1F00 + 0x100 * i)) = [true, true] := by decide
/-- The words of the bundle below R200: DELTA, TAG, an MX and a QX command. -/
theorem test_bundle : bundleOf [0x00010C4190000000, 0x7D40260005088640, 0x046FC00000000000] =
    { delta := 1, tag := 0x0C41, pmx := true, pvx := false, psx := false, pqx := true,
      mx := some (.os, { mask := 15, fp := .bq4, qw := 0, qa := 4, qo := 12, wsc := false, asc := false, sel := false,
                         ld := false, ofmt := .fp32, pf := 0, ots := 0, sc := some 5, pa := 1, ptw := 2, pta := 3, psd := 4 }),
      vx := none, sx := none, qx := some (.sgetp 6 63), size := 24 } := by decide
/-- The global addresses below R235, on module 3. -/
theorem test_addresses :
    (tregs [(0x410000, 3)] State.reset).placeAt 0x0600001240000000 = .dram 1 0x240000000 0x1240000000 ∧
    (tregs [(0x410000, 3)] State.reset).placeAt 0x0644700000002200 = .spad ⟨0, 4, 7⟩ 0x2200 0x4700000002200 ∧
    State.reset.placeAt 0x0644700000002200 = .away 3 1 0x4700000002200 := by decide
/-- The alternate of the torus example, 0x8000_0C80: x+, x+, y+, EJECT; the neighbours and their ports in a 4 by 4 torus. -/
theorem test_route : (tregs [(0x412170, 0x80000C80)] State.reset).alternate 11 0 = some 0xC80 ∧
    (List.range 4).map (fun h => ({ emptyFlit with route := 0xC80, hop := h } : Flit).code) = [0, 0, 2, 6] ∧
    expected 2 5 12 = some (6, 13) ∧ expected 2 6 18 ≠ none ∧ expected 2 7 14 = some (11, 15) := by decide
/-- The arbitration below R331: lines 0b001100 give N = 60 from the second frame after frame 1000; different copies are a
mismatch. -/
theorem test_arbitration :
    (match exec (.frequencyArbitration [false, false, true, true, false, false] [false, false, true, true, false, false])
        { wAligned 0 0 with tally := 256188 } with
      | .next t => (t.fld 0x400020 55 48, t.cad.freqs, t.fld 0x400010 54 54)
      | _ => (0, [], 0)) = (60, [(256512, 60)], 0) ∧
    (match exec (.frequencyArbitration [false, false, true, true, false, false] [false, false, true, true, false, true])
        { wAligned 0 0 with tally := 256188 } with
      | .next t => (t.cad.freqs, t.fld 0x400010 54 54)
      | _ => ([], 0)) = ([], 1) := by decide

/-! ### Commands on small states -/

/-- A scalar register of the test core after a command on a core whose S1 and S2 are given. -/
def sAfter (i : Instr) (a b : Word) (r : Nat) : Option Word :=
  match exec i (tcore ((({} : Core).setReg 0x208 a).setReg 0x210 b)) with
  | .next t => some ((t.coreAt 0).sreg r)
  | _ => none

/-- R198: arithmetic wraps; the source may be the destination; operand b is register or sign-extended immediate. -/
theorem test_arith : sAfter (.sadd tu 1 1 (.reg 2)) (BitVec.allOnes 64) 2 1 = some 1 ∧
    sAfter (.sadd tu 3 1 (.imm 0xFFFFFFFF)) 5 0 3 = some 4 ∧ sAfter (.ssub tu 2 1 (.reg 2)) 3 5 2 = some 0xFFFFFFFFFFFFFFFE := by
  decide
/-- R198: SMIN and SMAX compare as signed. -/
theorem test_signed : sAfter (.smin tu 3 1 (.reg 2)) 1 0x8000000000000000 3 = some 0x8000000000000000 ∧
    sAfter (.smax tu 3 1 (.reg 2)) 1 0x8000000000000000 3 = some 1 := by decide
/-- R198: logic on all bits. -/
theorem test_logic : sAfter (.sand tu 3 1 (.imm 0x80000000)) 0xF0F0F0F0F0F0F0F0 0 3 = some 0xF0F0F0F080000000 ∧
    sAfter (.sor tu 3 1 (.reg 2)) 0xF0 0x0F 3 = some 0xFF ∧ sAfter (.sxor tu 3 1 (.reg 2)) 0xFF 0x0F 3 = some 0xF0 := by decide
/-- R198: shifts by bits 7:0 of b; 64 and more give 0, or the sign. -/
theorem test_shifts : sAfter (.sshl tu 3 1 (.imm 64)) 1 0 3 = some 0 ∧ sAfter (.sshr tu 3 1 (.imm 4)) 0x8000000000000000 0 3 = some 0x0800000000000000 ∧
    sAfter (.ssra tu 3 1 (.imm 255)) 0x8000000000000000 0 3 = some (BitVec.allOnes 64) ∧
    sAfter (.sshl tu 3 1 (.imm 256)) 1 0 3 = some 1 := by decide
/-- R198: moves and immediates. -/
theorem test_moves : sAfter (.sli tu 15 0x80000000) 0 0 15 = some 0xFFFFFFFF80000000 ∧
    sAfter (.slih tu 1 0x12345678) 0x9ABCDEF0 0 1 = some 0x123456789ABCDEF0 ∧ sAfter (.smov tu 0 1) 7 0 0 = some 7 ∧
    sAfter (.sgetp tu 6 63) 0 0 6 = some 0 := by decide
/-- R198: SEXT takes bits [hi:lo], with or without the sign. -/
theorem test_sext : sAfter (.sext tu 3 1 0x10B04) 0xF80 0 3 = some 0xFFFFFFFFFFFFFFF8 ∧
    sAfter (.sext tu 3 1 0x00B04) 0xF80 0 3 = some 0xF8 := by decide
/-- R200: SMUL lands two running cycles later. -/
theorem test_smul : (match exec (.smul tu 3 1 (.imm 3)) (tcore (({} : Core).setReg 0x208 5)) with
    | .next t => (t.coreAt 0).late
    | _ => []) = [⟨2, 0, .sreg 3 15⟩] := by decide

/-- R181: a PATCH of an idle core writes its register, P62 included, and never P63. -/
theorem test_patch : (match exec (.patch tu ⟨wBake.unitOf tu, 62, 9⟩) (tcore {}) with
      | .next t => (t.coreAt 0).p 62
      | _ => 0) = 9 ∧
    (match exec (.patch tu ⟨wBake.unitOf tu, 63, 9⟩) (tcore {}) with
      | .next t => (t.coreAt 0).p 63
      | _ => 1) = 0 := by decide
/-- R174, R31: a LAUNCH starts template 0 at its START with P63 for member 0 of a group of one core. -/
theorem test_launch : (match exec (.launch tu ⟨tg, 0, 0, 16384⟩) wLaunch with
    | .next t => ((t.coreAt 0).seq.run, (t.coreAt 0).seq.gen, (t.coreAt 0).seq.tally, (t.coreAt 0).p 63)
    | _ => (false, 0, 0, 0)) = (true, 7, 16384, 0x1000000000000000) := by decide
/-- R267: what arrives in one cycle: the RESET first, then the sum of the increments. -/
theorem test_sync_apply : (match exec (.syncApply 0 4) { wApply with sync := [(4, { val := 100 })] } with
    | .next t => ((t.obj 0 4).val, t.syncMsgs)
    | _ => (0, [])) = (5, [{ tMsg (.inc 9) with due := 1 }]) := by decide
/-- R156: an element joins the buffer of the queue end that is bound to its sender. -/
theorem test_arrival : (match exec (.channelElementArrival 0) (wArrival (2 ^ 63)) with
    | .next t => ((t.coreAt 0).chanIn 1, t.flights)
    | _ => ([], [])) = ([⟨true, [1]⟩], []) := by decide
/-- R110: the beat's byte lands at its address, the last of the scratchpad. -/
theorem test_beat : (match exec (.vxBeatWrite tu) (tcore { vxs := [wBeat 1] }) with
    | .next t => ((t.coreAt 0).mem, (t.coreAt 0).vxs)
    | _ => ([], [])) = ([(0x5FFFF, 7)], []) := by decide
/-- R250: a read of the host in a pool slot hands out the line's byte. -/
theorem test_dram : (match exec (.dramSlot 7) (wDram 0x40 { mem := [(127, 9)], queues := [(16, [tReq none])] }) with
    | .next t => (t.hostOut, (t.dramOf 7).slot)
    | _ => ([], 0)) = ([.data [9]], 1) := by decide
/-- R313: a tick; R352: a doorbell; R381: a watchdog of limit 0. -/
theorem test_tick : (match exec (.tallyTick ⟨true, 0, 0⟩) State.reset with
    | .next t => t.tally
    | _ => 0) = 1 := by decide +kernel
theorem test_doorbell : (match exec (.doorbell 15 2 3) (wGate []) with
    | .next t => (t.fld (rqOff 15 2 2) 63 32, t.hostOut)
    | _ => (0, [])) = (3, [.msix (some 15) 0]) := by decide
/-- R360: OPEN answers the handle of record 1, TGEN 0, of module 0. -/
theorem test_open : (match exec (.openS 15 2) (wReq (2 ^ 60 + 2 ^ 59) 0 none (tRec 1 2 0)) with
    | .next t => ((t.stream 1).ctl, t.gate.fetched.map (fun f => f.done))
    | _ => (0, [])) = (0x9F80000000000000, [some (0, 0x10000000000, false)]) := by decide
/-- A command that names no unit has no effect (log 60). -/
theorem test_no_unit : exec (.mxDrain ⟨4, 0, 0⟩) State.reset = .next State.reset ∧
    exec (.doorbell 16 0 0) State.reset = .next State.reset := ⟨rfl, rfl⟩
/-- The front command runs with the rest of the queue behind it. -/
theorem test_step : (match step { State.reset with pending := [.tallyTick ⟨true, 0, 0⟩, .bypass] } with
    | .next t => (t.tally, t.pending)
    | _ => (0, [])) = (1, [.bypass]) := by decide +kernel
/-- The opcode table gives no row any bits (fields are empty), so no word spells a command. -/
theorem test_no_words (n w : Nat) : decodeTableWord n w = none := rfl

/-! ### Ill-formed commands -/

theorem wf_cores : (Instr.abort ⟨4, 0, 0⟩ 0).wf = false ∧ (Instr.abort ⟨0, 12, 0⟩ 0).wf = false ∧ (Instr.abort ⟨0, 0, 16⟩ 0).wf = false ∧
    (Instr.abort ⟨3, 11, 15⟩ 0).wf = true := by decide
theorem wf_messages : (Instr.launch tu ⟨0, 32, 0, 0⟩).wf = false ∧ (Instr.launch tu ⟨0, 0, 16, 0⟩).wf = false ∧
    (Instr.launch tu ⟨0, 0, 0, 2 ^ 64⟩).wf = false ∧ (Instr.patch tu ⟨0, 63, 0⟩).wf = false ∧
    (Instr.messageDelivery (some ⟨none, 0, .launch ⟨0, 32, 0, 0⟩⟩)).wf = false ∧
    (Instr.messageDelivery (some ⟨none, 0, .patch ⟨0, 63, 0⟩⟩)).wf = false ∧ (Instr.messageDelivery none).wf = true := by decide
theorem wf_mx : (Instr.mmaOs tu { tMxCmd with mask := 16 }).wf = false ∧ (Instr.mmaWs tu { tMxCmd with qw := 48 }).wf = false ∧
    (Instr.mmaIs tu { tMxCmd with qw := 1 }).wf = false ∧ (Instr.mmaOs tu { tMxCmd with qa := 48 }).wf = false ∧
    (Instr.mmaOs tu { tMxCmd with qa := 2 }).wf = false ∧ (Instr.mmaOs tu { tMxCmd with qo := 48 }).wf = false ∧
    (Instr.mmaOs tu { tMxCmd with qo := 2 }).wf = false ∧ (Instr.mmaOs tu { tMxCmd with pf := 32 }).wf = false ∧
    (Instr.mmaOs tu { tMxCmd with ots := 4 }).wf = false ∧ (Instr.mmaOs tu { tMxCmd with sc := some 16 }).wf = false ∧
    (Instr.mmaOs tu { tMxCmd with pa := 32 }).wf = false ∧ (Instr.mmaOs tu { tMxCmd with ptw := 32 }).wf = false ∧
    (Instr.mmaOs tu { tMxCmd with pta := 32 }).wf = false ∧ (Instr.mmaOs tu { tMxCmd with psd := 32 }).wf = false ∧
    (Instr.mmaOs tu tMxCmd).wf = true := by decide
theorem wf_vx : (Instr.mov tu { tVxCmd with sa := .q 48 }).wf = false ∧ (Instr.mov tu { tVxCmd with sa := .addr 64 }).wf = false ∧
    (Instr.mov tu { tVxCmd with sb := .rep 64 }).wf = false ∧ (Instr.mov tu { tVxCmd with sb := .bc 16 }).wf = false ∧
    (Instr.mov tu { tVxCmd with dst := .q 48 }).wf = false ∧ (Instr.mov tu { tVxCmd with dst := .addr 64 }).wf = false ∧
    (Instr.mov tu { tVxCmd with pl := 32 }).wf = false ∧ (Instr.mov tu { tVxCmd with px := 32 }).wf = false ∧
    (Instr.mov tu { tVxCmd with py := 32 }).wf = false ∧ (Instr.mov tu { tVxCmd with sc := some 16 }).wf = false ∧
    (Instr.mov tu { tVxCmd with mq := some 48 }).wf = false ∧ (Instr.mov tu { tVxCmd with shb := 128 }).wf = false ∧
    (Instr.mov tu { tVxCmd with imm := 128 }).wf = false ∧ (Instr.mov tu tVxCmd).wf = true := by decide
theorem wf_sx_qx : (Instr.sxGo tu ⟨64, none, none⟩).wf = false ∧ (Instr.sxGo tu ⟨0, some 64, none⟩).wf = false ∧
    (Instr.sxGo tu ⟨0, none, some 64⟩).wf = false ∧ (Instr.sli tu 16 0).wf = false ∧ (Instr.smov tu 16 0).wf = false ∧
    (Instr.smov tu 0 16).wf = false ∧ (Instr.sgetp tu 16 0).wf = false ∧ (Instr.sgetp tu 0 64).wf = false ∧
    (Instr.sadd tu 16 0 (.imm 0)).wf = false ∧ (Instr.sadd tu 0 16 (.imm 0)).wf = false ∧ (Instr.sadd tu 0 0 (.reg 16)).wf = false ∧
    (Instr.sst tu 16 0 0).wf = false ∧ (Instr.sst tu 0 16 0).wf = false ∧ (Instr.csrw tu 16 0).wf = false ∧
    (Instr.qbind tu 48 0).wf = false ∧ (Instr.qbind tu 0 64).wf = false ∧ (Instr.qunbind tu 48).wf = false := by decide
theorem wf_sync : (Instr.signal tu (.store 4 0) (.imm 0)).wf = false ∧ (Instr.signal tu (.store 0 32768) (.imm 0)).wf = false ∧
    (Instr.signal tu (.ns 4096 0) (.imm 0)).wf = false ∧ (Instr.signal tu (.ns 0 32768) (.imm 0)).wf = false ∧
    (Instr.signal tu (.ptr 64) (.imm 0)).wf = false ∧ (Instr.signal tu (.ptr 0) (.reg 16)).wf = false ∧
    (Instr.reset tu (.ptr 64)).wf = false ∧ (Instr.barrierD tu 4096).wf = false ∧ (Instr.skip tu ⟨16, .all, .eqz⟩ 1).wf = false ∧
    (Instr.skip tu ⟨0, .all, .eqz⟩ 0).wf = false ∧ (Instr.skip tu ⟨0, .all, .eqz⟩ 256).wf = false ∧
    (Instr.endT tu ⟨0, .all, .eqz⟩ 64 0).wf = false ∧ (Instr.endT tu ⟨0, .all, .eqz⟩ 0 64).wf = false ∧
    (Instr.syncApply 4 0).wf = false ∧ (Instr.syncApply 0 32768).wf = false := by decide
theorem wf_units : (Instr.tagGrant 4).wf = false ∧ (Instr.combiningTake 4 0).wf = false ∧ (Instr.combiningDelivery 0 12).wf = false ∧
    (Instr.dramSlot 8).wf = false ∧ (Instr.refreshRegimeSwitch 8 0).wf = false ∧ (Instr.refreshRegimeSwitch 0 256).wf = false ∧
    (Instr.slotTableLoad 8 [] []).wf = false ∧ (Instr.slotTableLoad 0 [] (List.replicate 1024 0)).wf = false ∧
    (Instr.slotTableLoad 0 (List.replicate 1024 0) []).wf = false := by decide +kernel
theorem wf_fabric : (Instr.codewordReceive 24 0 (List.replicate 544 0)).wf = false ∧
    (Instr.codewordReceive 0 9 (List.replicate 544 0)).wf = false ∧ (Instr.codewordReceive 0 0 []).wf = false ∧
    (Instr.flitSlotSend 24).wf = false ∧ (Instr.flitForward 24).wf = false ∧ (Instr.flitEject 24).wf = false ∧
    (Instr.ackFlitSend 64).wf = false ∧ (Instr.portTraining 24 (.signal 0)).wf = false ∧ (Instr.portTraining 0 (.signal 512)).wf = false ∧
    (Instr.portTraining 0 (.locked 512)).wf = false ∧ (Instr.portTraining 0 (.ident 64 0 0)).wf = false ∧
    (Instr.portTraining 0 (.ident 0 24 0)).wf = false ∧ (Instr.portTraining 0 (.ident 0 0 4)).wf = false ∧
    (Instr.portTraining 0 (.measured 65536)).wf = false ∧ (Instr.retrain 24).wf = false ∧ (Instr.linkFault 24 .drift 0).wf = false ∧
    (Instr.slotBookingMerge (some (2 ^ 24)) []).wf = false ∧ (Instr.slotBookingMerge none [⟨24, 0, 0, 0, 0⟩]).wf = false ∧ (Instr.slotBookingMerge none [⟨0, 512, 0, 0, 0⟩]).wf = false ∧
    (Instr.slotBookingMerge none [⟨0, 0, 4, 0, 0⟩]).wf = false ∧ (Instr.slotBookingMerge none [⟨0, 0, 0, 24, 0⟩]).wf = false ∧
    (Instr.slotBookingMerge none [⟨0, 0, 0, 0, 16⟩]).wf = false := by decide
theorem wf_ridge : (Instr.walkSlot 64 (List.replicate 64 0)).wf = false ∧ (Instr.walkSlot 0 []).wf = false ∧ (Instr.ridgeAbort []).wf = false ∧
    (Instr.ridgeBarrier []).wf = false ∧ (Instr.regionVoteUpdate []).wf = false ∧
    (Instr.regionVoteUpdate (List.replicate 53 ⟨256, 0, 0⟩)).wf = false ∧ (Instr.regionVoteUpdate (List.replicate 53 ⟨0, 256, 0⟩)).wf = false ∧
    (Instr.regionVoteUpdate (List.replicate 53 ⟨0, 0, 256⟩)).wf = false ∧ (Instr.frequencyArbitration [] (List.replicate 6 true)).wf = false ∧
    (Instr.frequencyArbitration (List.replicate 6 true) []).wf = false ∧ (Instr.droopFault 53).wf = false ∧ (Instr.thermalTrip 53).wf = false ∧
    (Instr.alignmentRegain 0 []).wf = false ∧ (Instr.alignmentRegain 256 (List.replicate 14 0)).wf = false ∧ (Instr.powerCapUpdate 65536 0 false).wf = false ∧ (Instr.powerCapUpdate 0 65536 false).wf = false := by
  decide
theorem wf_requests : (Instr.doorbell 16 0 0).wf = false ∧ (Instr.nop 0 3).wf = false ∧
    (Instr.ingestFetch { tDesc 0 0 with inlen := 2 ^ 32 } []).wf = false ∧ (Instr.ingestFetch { tDesc 0 0 with dlrel := 2 ^ 32 } []).wf = false ∧
    (Instr.ingestFetch { tDesc 0 0 with inlen := 1 } []).wf = false ∧ (Instr.recordRetire 262144).wf = false ∧ (Instr.resultWrite 16).wf = false ∧
    (Instr.ringEnableWrite 16 0 0).wf = false ∧ (Instr.ringEnableWrite 0 4 0).wf = false ∧ (Instr.launchTableFire 256).wf = false ∧
    (Instr.apertureAccess { tAper none with index := 64 }).wf = false ∧ (Instr.apertureAccess { tAper none with vf := some 16 }).wf = false ∧
    (Instr.apertureAccess { tAper none with vf := some 0, index := 4 }).wf = false ∧ (Instr.apertureAccess { tAper none with offset := 2 ^ 30 }).wf = false ∧
    (Instr.apertureAccess { tAper none with len := 0 }).wf = false ∧ (Instr.apertureAccess { tAper none with len := 257 }).wf = false ∧
    (Instr.apertureAccess (tAper (some []))).wf = false ∧ (Instr.apertureAccess (tAper (some (List.replicate 257 0)))).wf = false := by decide +kernel
theorem wf_recovery : (Instr.faultDetect ⟨7, 0, 0, none⟩).wf = false ∧ (Instr.faultDetect ⟨0, 0, 65536, none⟩).wf = false ∧
    (Instr.faultRecheck 4 0 true []).wf = false ∧ (Instr.spareSubstitution 0 12 0 [] []).wf = false ∧ (Instr.abortFlit []).wf = false ∧
    (Instr.sequencerStep 16 0 0 0).wf = false ∧ (Instr.sequencerStep 0 256 0 0).wf = false ∧
    (Instr.sequencerStep 0 0 (2 ^ 48) 0).wf = false ∧ (Instr.sequencerStep 0 0 0 (2 ^ 48)).wf = false ∧ (Instr.mcWatchdog 6).wf = false ∧
    (Instr.run []).wf = false ∧ (Instr.travelPublish [] []).wf = false ∧ (Instr.heartbeatLoss 64).wf = false := by decide
def tKey : KeyInput := ⟨[], List.replicate 48 0, []⟩
theorem wf_tables : (Instr.groupSectionLoad [0]).wf = false ∧ (Instr.groupDescriptorWrite 0xFFFF8 0).wf = false ∧
    (Instr.groupDescriptorWrite 0x160000 0).wf = false ∧ (Instr.groupDescriptorWrite 0x100002 0).wf = false ∧
    (Instr.queueBindingWrite tu 48 0 0).wf = false ∧ (Instr.queueBindingWrite tu 0 4 0).wf = false ∧ (Instr.combiningSlotWrite 0 0 64 0 0).wf = false ∧
    (Instr.combiningSlotWrite 0 0 0 4 0).wf = false ∧ (Instr.windowWrite 256 0 0).wf = false ∧ (Instr.windowWrite 0 4 0).wf = false ∧
    (Instr.tagPartitionWrite 0 16 0).wf = false ∧ (Instr.syncObjectWrite 0 32768 0).wf = false ∧ (Instr.keyRecordForm 256 tKey tDecl).wf = false ∧
    (Instr.keyRecordForm 0 { tKey with conf := [] } tDecl).wf = false ∧ (Instr.keyRecordForm 0 tKey tDecl).wf = true ∧ (Instr.dbgUnlock []).wf = false ∧ (Instr.debugStateAccess 0x4000000 none).wf = false ∧
    (Instr.debugStateAccess 4 none).wf = false ∧ (Instr.registerWrite .host 0x4000000 8 0).wf = false ∧ (Instr.registerWrite .host 0 2 0).wf = false ∧
    (Instr.registerWrite .host 4 8 0).wf = false ∧ (Instr.recoveryBar2Access 0x10000000 (some [0]) 0).wf = false ∧ (Instr.recoveryBar2Access 0x10000000 none 1).wf = false := by decide
theorem wf_batch : ({ tDecl with ncmt := 0 } : BatchDecl).wf = false ∧ ({ tDecl with ncmt := 65 } : BatchDecl).wf = false ∧
    ({ tDecl with nullSlot := 2 ^ 32 } : BatchDecl).wf = false ∧ tDecl.wf = true := by decide


end Sys2Proof.Tests
end

section
/-! PROOFS. The physical map of a cluster (R37). -/
namespace Sys2Proof.Machine

/-- Bit i of a word, read through the field accessor, is its bit i. -/
theorem bitAt_eq_getLsbD (w : Word) (i : Nat) : bitAt w i = w.getLsbD i := by
  simp [bitAt, fld, bitsOf, BitVec.getLsbD, Nat.testBit_eq_decide_div_mod_eq, beq_eq_decide]

/-- In an ascending list of the numbers below n that pass a test, number p stands after those below it that pass. -/
theorem getElem?_filter_range {f : Nat → Bool} {p : Nat} (hf : f p = true) :
    ∀ {n : Nat}, p < n → ((List.range n).filter f)[((List.range p).filter f).length]? = some p
  | n + 1, h => by
    rw [List.range_succ, List.filter_append]
    obtain hlt | rfl := Nat.lt_succ_iff_lt_or_eq.mp h
    · have ih := getElem?_filter_range hf hlt
      rwa [List.getElem?_append_left (List.getElem?_eq_some_iff.mp ih).1]
    · simp [hf]

/-- PFAIL is the low five bits of CL.SPARE. -/
theorem fld_pfail (w : Word) : fld w 4 0 = (w.setWidth 5).toNat := by
  simp [fld, bitsOf]

theorem unfused_eq (w : Word) : unfused w = (List.range 16).filter (fun p => !w.getLsbD (32 + p)) := by
  simp only [unfused, bitAt_eq_getLsbD]

/-- A logical slot beyond the physical slots that are not fused off has no core. -/
theorem physOf_none {w : Word} {l : Nat} (h : (unfused w).length ≤ l) : physOf w l = none := by
  simp [physOf, List.getElem?_eq_none h]

/-- The logical slot of physical slot p has p, or the spare if p is the slot that it replaces. -/
theorem physOf_some {w : Word} {l p : Nat} (h : (unfused w)[l]? = some p) :
    physOf w l = some (if w.getLsbD 23 = true ∧ p = (w.setWidth 5).toNat then 16 else p) := by
  simp only [physOf, h, bitAt_eq_getLsbD, fld_pfail, Bool.and_eq_true, beq_iff_eq]
  split <;> rfl

end Sys2Proof.Machine

open Sys2Proof Sys2Proof.Machine

/-- Settles O53: physical slot p is entry number `below p` of the unfused slots, and logical slot l is entry l. -/
theorem thePhysicalMapFollowsTheFuses : Obligations.ThePhysicalMapFollowsTheFuses := by
  unfold Obligations.ThePhysicalMapFollowsTheFuses
  intro w below hbelow
  constructor
  · intro p hp hfuse
    apply physOf_some
    rw [hbelow, unfused_eq]
    exact getElem?_filter_range (by simp [hfuse]) hp
  · intro l hl
    apply physOf_none
    rwa [unfused_eq, ← hbelow]

end

section
/-! PROOFS. The split of an element stream over the members of a group (R32, R33). -/
namespace Sys2Proof.Machine

/-! ### Counting the elements of a member -/

/-- Of the numbers below B * a + r, with r at most B, those whose block of B passes a test: B for each passing block
before block a, and the r numbers of block a if it passes. -/
theorem count_div {Q : Nat → Prop} [DecidablePred Q] {B : Nat} (hB : 0 < B) (a : Nat) :
    ∀ {r : Nat}, r ≤ B → Nat.count (fun x => Q (x / B)) (B * a + r) = B * Nat.count Q a + if Q a then r else 0 := by
  have block (a : Nat) {r : Nat} (hr : r ≤ B) :
      Nat.count (fun k => Q ((B * a + k) / B)) r = if Q a then r else 0 := by
    have hdiv : ∀ k < r, (B * a + k) / B = a := fun k hk => by
      rw [Nat.mul_add_div hB, Nat.div_eq_of_lt (by omega), Nat.add_zero]
    split
    case isTrue h => exact Nat.count_iff_forall.mpr fun k hk => (hdiv k hk).symm ▸ h
    case isFalse h => exact Nat.count_iff_forall_not.mpr fun k hk => (hdiv k hk).symm ▸ h
  induction a with
  | zero =>
    intro r hr
    simpa using block 0 hr
  | succ a ih =>
    intro r hr
    rw [Nat.count_add, block (a + 1) hr, Nat.mul_succ, ih le_rfl, Nat.count_succ]
    split <;> simp [Nat.mul_add]

/-- Before a number that leaves m modulo n, one in n did. -/
theorem count_mod_eq {n m a : Nat} (hn : 0 < n) (ha : a % n = m) : Nat.count (fun x => x % n = m) a = a / n := by
  subst ha
  have h := Nat.count_modEq_card a hn a
  rwa [if_neg (lt_irrefl _), Nat.add_zero] at h

/-- Blocks of B go to n members in turn. An element j of member m comes after B elements of each earlier round, and
after those of its own block. -/
theorem count_interleave {B n m j : Nat} (hB : 0 < B) (hn : 0 < n) (hm : j / B % n = m) :
    Nat.count (fun x => x / B % n = m) j = j / (B * n) * B + j % B := by
  have h := count_div (Q := fun b => b % n = m) hB (j / B) (Nat.mod_lt j hB).le
  rw [Nat.div_add_mod, if_pos hm, count_mod_eq hn hm] at h
  rw [h, ← Nat.div_div_eq_div_mul, Nat.mul_comm]

/-! ### The member of an element -/

/-- The elements that go to one member before the next member has its turn: one, GRAN, or GRAN rows. -/
def splitBlock (split gran rowlen : Nat) : Nat :=
  match split with
  | 0 => 1
  | 1 => max 1 gran
  | _ => max 1 gran * max 1 rowlen

theorem memberOf_eq (split gran rowlen n j : Nat) : memberOf split gran rowlen n j =
    (j / splitBlock split gran rowlen % max 1 n,
      j / (splitBlock split gran rowlen * max 1 n) * splitBlock split gran rowlen + j % splitBlock split gran rowlen) := rfl

theorem splitBlock_pos (split gran rowlen : Nat) : 0 < splitBlock split gran rowlen := by
  unfold splitBlock
  split
  · exact Nat.one_pos
  · exact Nat.le_max_left 1 _
  · exact Nat.mul_pos (Nat.le_max_left 1 _) (Nat.le_max_left 1 _)

/-- The member is that of R32, by SPLIT. -/
theorem memberOf_fst {gran rowlen n : Nat} (split j : Nat) (hn : 1 ≤ n) (hg : 1 ≤ gran) (hr : 1 ≤ rowlen) :
    (memberOf split gran rowlen n j).1 = (match split with
      | 0 => j % n
      | 1 => j / gran % n
      | _ => j / rowlen / gran % n) := by
  simp only [memberOf_eq, splitBlock, Nat.max_eq_right hn, Nat.max_eq_right hg, Nat.max_eq_right hr]
  split
  · rw [Nat.div_one]
  · rfl
  · rw [Nat.mul_comm, Nat.div_div_eq_div_mul]

/-- An element is numbered by the earlier elements of its member (R33). -/
theorem memberOf_snd (split gran rowlen n j : Nat) : (memberOf split gran rowlen n j).2 =
    ((List.range j).filter (fun x =>
      (memberOf split gran rowlen n x).1 == (memberOf split gran rowlen n j).1)).length := by
  rw [← List.countP_eq_length_filter]
  exact (count_interleave (splitBlock_pos split gran rowlen) (Nat.le_max_left 1 n) rfl).symm

/-! ### The split -/

/-- The UnitID of group i names group i (R20). -/
theorem ofId_toId_group {i : Nat} (hi : i < 4096) : UnitForm.ofId (UnitForm.toId (.group i)) = .group i := by
  have hn : (UnitForm.toId (.group i)).toNat = 2 ^ 31 + i := by
    simp only [UnitForm.toId, BitVec.toNat_ofNat]
    omega
  have hbit : natBit (2 ^ 31 + i) 31 = true := by
    simp only [natBit, beq_iff_eq]
    omega
  have hzero : bitsOf (2 ^ 31 + i) 30 12 = 0 := by
    simp only [bitsOf]
    omega
  have hindex : bitsOf (2 ^ 31 + i) 11 0 = i := by
    simp only [bitsOf]
    omega
  simp only [UnitForm.ofId, hn, hbit, hzero, hindex, if_true]

/-- A core takes the elements of its own queue end as they are numbered. -/
theorem State.splitTo_core (s : State) (f : Nat) {u : UnitId} (j : Nat) (hu : ∃ a d k l, UnitForm.ofId u = .core a d k l) :
    s.splitTo f u j = (u, j) := by
  obtain ⟨a, d, k, l, hu⟩ := hu
  cases f with
  | zero => rfl
  | succ f => simp only [State.splitTo, hu]

/-- A group passes an element to its member, under its number there. -/
theorem State.splitTo_group (s : State) (f j : Nat) {i : Nat} (hi : i < 4096) (hv : s.gdV i = true) :
    s.splitTo (f + 1) (UnitForm.toId (.group i)) j =
      s.splitTo f ((s.gdMembers i).getD (memberOf (s.gdSplit i) (s.gdGran i) (s.gdRowlen i) (s.gdMcount i) j).1
        (UnitForm.toId (.group i))) (memberOf (s.gdSplit i) (s.gdGran i) (s.gdRowlen i) (s.gdMcount i) j).2 := by
  simp only [State.splitTo, State.children, ofId_toId_group hi, hv, if_true]

end Sys2Proof.Machine

open Sys2Proof Sys2Proof.Machine

/-- Settles O54: the group passes element j to the member of R32, a core, which takes it under its number there; a count over
the blocks says that this number is that of the earlier elements of the member. The reserved SPLIT values act as 2
(log 8). -/
theorem elementsInterleaveAcrossMembers : Obligations.ElementsInterleaveAcrossMembers := by
  unfold Obligations.ElementsInterleaveAcrossMembers
  intro s i j n m u hi hv hcount hn hg hr hm hu hcore
  have hmember : (memberOf (s.gdSplit i) (s.gdGran i) (s.gdRowlen i) n j).1 = m :=
    (memberOf_fst (s.gdSplit i) j hn hg hr).trans hm.symm
  have hsplit : s.splitTo 6 (UnitForm.toId (.group i)) j =
      (u, (memberOf (s.gdSplit i) (s.gdGran i) (s.gdRowlen i) n j).2) := by
    rw [State.splitTo_group s 5 j hi hv, hcount, hmember, List.getD_eq_getElem?_getD, hu, Option.getD_some,
      State.splitTo_core s 5 _ hcore]
  rw [hsplit]
  refine ⟨rfl, ?_⟩
  rw [memberOf_snd, hmember]

end

section
/-! PROOFS. The element codes of the block formats and the values the quantiser emits (R50-R52, R63). -/
namespace Sys2Proof.Machine

/-! ### Two's complement codes -/

/-- The model's reading of a code is the signed value of the bit vector. -/
theorem toSigned_eq_toInt (w n : Nat) : toSigned w n = (BitVec.ofNat w n).toInt := by
  rw [BitVec.toInt_eq_toNat_cond, BitVec.toNat_ofNat]
  cases w with
  | zero => simp [toSigned, Nat.mod_one]
  | succ w =>
    have hhalf : 2 * (n % 2 ^ (w + 1)) < 2 ^ (w + 1) ↔ n % 2 ^ (w + 1) < 2 ^ w := by omega
    simp only [toSigned, hhalf, Nat.add_sub_cancel, Nat.cast_pow, Nat.cast_ofNat]

theorem ofSigned_eq_toNat (w : Nat) (i : Int) : ofSigned w i = (BitVec.ofInt w i).toNat := by
  simp [ofSigned, BitVec.toNat_ofInt]

/-- A value of the two's complement range stands under its own code. -/
theorem toSigned_ofSigned {w : Nat} {i : Int} (hw : 0 < w) (hlo : -2 ^ (w - 1) ≤ i) (hhi : i < 2 ^ (w - 1)) :
    toSigned w (ofSigned w i) = i := by
  rw [toSigned_eq_toInt, ofSigned_eq_toNat, BitVec.ofNat_toNat, BitVec.setWidth_eq,
    BitVec.toInt_ofInt_eq_self hw hlo hhi]

theorem toSigned_of_lt {w n : Nat} (h : n < 2 ^ w) :
    toSigned w n = if n < 2 ^ (w - 1) then (n : Int) else (n : Int) - 2 ^ w := by
  simp only [toSigned, Nat.mod_eq_of_lt h]

/-! ### BQ2, BQ4 and BQ8 -/

theorem BqFmt.codeVal_eq_toSigned {f : BqFmt} (hf : f ≠ .bq1) (u : Bool) (c : Nat) :
    f.codeVal u c = toSigned f.codeBits c := by
  cases f with
  | bq1 => exact absurd rfl hf
  | bq2 | bq4 | bq8 => rfl

/-- A code below half of the codes has its own value, and one above it that value less the number of codes (R50-R52). -/
theorem BqFmt.codeVal_of_lt {f : BqFmt} (hf : f ≠ .bq1) (u : Bool) {n : Nat} (h : n < 2 ^ f.codeBits) :
    f.codeVal u n = if n < 2 ^ (f.codeBits - 1) then (n : Int) else (n : Int) - 2 ^ f.codeBits := by
  rw [BqFmt.codeVal_eq_toSigned hf, toSigned_of_lt h]

/-- The quantiser's range is the two's complement range without its most negative value. -/
theorem BqFmt.qmax_eq {f : BqFmt} (hf : f ≠ .bq1) : (f.qmax : Int) = 2 ^ (f.codeBits - 1) - 1 := by
  cases f with
  | bq1 => exact absurd rfl hf
  | bq2 | bq4 | bq8 => rfl

theorem BqFmt.codeBits_pos (f : BqFmt) : 0 < f.codeBits := by
  cases f <;> decide

/-- The quantiser rounds to nearest even and clamps to ±qmax (R63). -/
theorem quantVal_fst {f : BqFmt} (hf : f ≠ .bq1) (u : Bool) (e : Nat) (x : Dy) :
    (quantVal f u e x).1 = max (-(f.qmax : Int)) (min f.qmax (Dy.round .rne (x.scale (127 - (e : Int))))) := by
  have hclamp : quantVal f u e x =
      let r := Dy.round .rne (x.scale (127 - (e : Int)))
      if r < -(f.qmax : Int) then (-(f.qmax : Int), true)
      else if r > f.qmax then (f.qmax, true) else (r, false) := by
    cases f with
    | bq1 => exact absurd rfl hf
    | bq2 | bq4 | bq8 => rfl
  rw [hclamp]
  grind

theorem neg_qmax_le_quantVal {f : BqFmt} (hf : f ≠ .bq1) (u : Bool) (e : Nat) (x : Dy) :
    -(f.qmax : Int) ≤ (quantVal f u e x).1 := by
  rw [quantVal_fst hf]
  exact le_max_left _ _

theorem quantVal_le_qmax {f : BqFmt} (hf : f ≠ .bq1) (u : Bool) (e : Nat) (x : Dy) :
    (quantVal f u e x).1 ≤ f.qmax := by
  rw [quantVal_fst hf]
  omega

theorem quantCode_eq {f : BqFmt} (hf : f ≠ .bq1) (u : Bool) (e : Nat) (x : Dy) :
    quantCode f u e x = if e = 0 then 0 else f.codeOf (quantVal f u e x).1 := by
  cases f with
  | bq1 => exact absurd rfl hf
  | bq2 | bq4 | bq8 => rfl

/-- A value within ±qmax stands under its own code. -/
theorem BqFmt.codeVal_codeOf {f : BqFmt} (hf : f ≠ .bq1) (u : Bool) {v : Int} (hlo : -(f.qmax : Int) ≤ v) (hhi : v ≤ f.qmax) :
    f.codeVal u (f.codeOf v) = v := by
  rw [BqFmt.qmax_eq hf] at hlo hhi
  rw [BqFmt.codeVal_eq_toSigned hf, BqFmt.codeOf]
  exact toSigned_ofSigned f.codeBits_pos (by omega) (by omega)

/-- What the quantiser emits: code 0 under scale exponent 0, and otherwise the code of the clamped value. -/
theorem codeVal_quantCode {f : BqFmt} (hf : f ≠ .bq1) (u : Bool) (e : Nat) (x : Dy) :
    f.codeVal u (quantCode f u e x) = if e = 0 then 0 else (quantVal f u e x).1 := by
  rw [quantCode_eq hf]
  split
  · rw [BqFmt.codeVal_eq_toSigned hf]
    simp [toSigned]
  · exact BqFmt.codeVal_codeOf hf u (neg_qmax_le_quantVal hf u e x) (quantVal_le_qmax hf u e x)

end Sys2Proof.Machine

open Sys2Proof Sys2Proof.Machine

/-- Settles O52: a code is read as two's complement, and the quantiser's clamp to ±qmax keeps it within the values that their
own codes give back. -/
theorem blockCodesHaveTheirValues : Obligations.BlockCodesHaveTheirValues := by
  unfold Obligations.BlockCodesHaveTheirValues
  constructor
  · intro u n
    exact ⟨BqFmt.codeVal_of_lt (f := .bq2) (by decide) u, BqFmt.codeVal_of_lt (f := .bq4) (by decide) u,
      BqFmt.codeVal_of_lt (f := .bq8) (by decide) u⟩
  · intro f q u e x hq
    obtain ⟨hf, rfl⟩ : f ≠ .bq1 ∧ q = f.qmax := by
      obtain ⟨rfl, rfl⟩ | ⟨rfl, rfl⟩ | ⟨rfl, rfl⟩ := hq <;> exact ⟨by decide, rfl⟩
    exact ⟨neg_qmax_le_quantVal hf u e x, quantVal_le_qmax hf u e x, codeVal_quantCode hf u e x⟩

end

section
/-! PROOFS. The DRAM slot tables at reset (R249). -/
namespace Sys2Proof.Machine

/-! ### Where the elements of a register array start -/

/-- The distance from the first element of an array to its last. -/
def dimSpan : List (Nat × Nat) → Nat
  | [] => 0
  | (st, n) :: ds => (n - 1) * st + dimSpan ds

/-- No element of an array starts beyond its last one. -/
theorem dimIndex_eq_none {ds : List (Nat × Nat)} {d : Nat} (h : dimSpan ds < d) : dimIndex ds d = none := by
  induction ds generalizing d with
  | nil => exact if_neg (by simp [dimSpan] at h; omega)
  | cons a ds ih =>
    obtain ⟨st, n⟩ := a
    simp only [dimIndex, dimSpan] at h ⊢
    generalize (if ds.isEmpty then d / st else min (d / st) (n - 1)) = i
    split
    · have hi : i * st ≤ (n - 1) * st := Nat.mul_le_mul_right st (by omega)
      rw [ih (by omega), Option.map_none]
    · rfl

/-- Within stride number i of its outermost dimension, an array goes on with the inner ones. -/
theorem dimIndex_cons {st n i d : Nat} (ds : List (Nat × Nat)) (hi : i < n) (hd : d < st) :
    dimIndex ((st, n) :: ds) (i * st + d) = (dimIndex ds d).map (i :: ·) := by
  have hdiv : (i * st + d) / st = i := by
    rw [Nat.mul_comm, Nat.mul_add_div (by omega), Nat.div_eq_of_lt hd, Nat.add_zero]
  have hmin : min i (n - 1) = i := by omega
  simp [dimIndex, hdiv, hmin, hi]

theorem findReg_append (l l' : List RegDesc) (off : Nat) : findReg (l ++ l') off = (findReg l off).or (findReg l' off) :=
  List.findSome?_append

/-- Registers that all start below an offset are not the ones that start there. -/
theorem findReg_eq_none_of_below {l : List RegDesc} {off : Nat} (h : ∀ d ∈ l, d.base + dimSpan d.dims < off) :
    findReg l off = none := by
  refine List.findSome?_eq_none_iff.mpr fun d hd => ?_
  have hlast := h d hd
  rw [dimIndex_eq_none (by omega)]
  exact ite_self none

/-! ### The entries of MEM.SLOT -/

/-- The description of MEM.SLOT (R247). -/
def memSlotDesc : RegDesc := ⟨0x481000, [(0x4000, 8), (0x400, 2), (1, 1024)], 1, [⟨7, 6, .rw⟩, ⟨3, 0, .rw⟩], 0⟩

/-- The part of `moduleRegs` before the registers of the dies. -/
def regsBeforeDie : List RegDesc := hubRegs1 ++ hubRegs2 ++ hubRegs3 ++ cadRegs1 ++ fabRegs1 ++ mgcRegs1 ++ audRegs1

theorem moduleRegs_eq : moduleRegs = regsBeforeDie ++ (dieRegs1 ++ textRegs) := List.append_assoc ..

theorem regsBeforeDie_below : ∀ d ∈ regsBeforeDie, d.base + dimSpan d.dims < 0x480000 := by decide +kernel

/-- The offset of a slot-table entry, in the strides of the dimensions of MEM.SLOT. -/
theorem slotOff_eq (m v k : Nat) : slotOff m v k = 0x481000 + (m * 0x4000 + (v * 0x400 + (k * 1 + 0))) := by
  unfold slotOff memOff
  omega

/-- The MEM.THERM registers share the blocks of the controllers with the slot tables, and end before them. -/
theorem dimIndex_therm_slotOff {m v k : Nat} (hm : m < 8) (hv : v < 2) (hk : k < 1024) :
    dimIndex [(0x4000, 8)] (slotOff m v k - 0x480100) = none := by
  have hdist : slotOff m v k - 0x480100 = m * 0x4000 + (0xF00 + v * 0x400 + k) := by
    rw [slotOff_eq]
    omega
  rw [hdist, dimIndex_cons [] hm (by omega), dimIndex_eq_none (by simp only [dimSpan]; omega), Option.map_none]

/-- The entry of a slot table is the element of MEM.SLOT (R247) with its indices. -/
theorem findReg_slotOff {m v k : Nat} (hm : m < 8) (hv : v < 2) (hk : k < 1024) :
    findReg moduleRegs (slotOff m v k) = some (memSlotDesc, [m, v, k]) := by
  have hoff := slotOff_eq m v k
  have hbefore : findReg regsBeforeDie (slotOff m v k) = none :=
    findReg_eq_none_of_below fun d hd => by have := regsBeforeDie_below d hd; omega
  have hslot : dimIndex [(0x4000, 8), (0x400, 2), (1, 1024)] (slotOff m v k - 0x481000) = some [m, v, k] := by
    rw [hoff, Nat.add_sub_cancel_left, dimIndex_cons _ hm (by omega), dimIndex_cons _ hv (by omega),
      dimIndex_cons _ hk (by omega)]
    rfl
  rw [moduleRegs_eq, findReg_append, hbefore, Option.none_or, findReg_append]
  have hdie : findReg dieRegs1 (slotOff m v k) = some (memSlotDesc, [m, v, k]) := by
    simp [findReg, dieRegs1, memSlotDesc, dimIndex_therm_slotOff hm hv hk, hslot, show 0x481000 ≤ slotOff m v k by omega]
  rw [hdie, Option.some_or]

/-- No ST value (log 1) stands in a slot table. -/
theorem starterReset_find?_slotOff (m v k : Nat) : starterReset.find? (fun p => p.1 == slotOff m v k) = none := by
  rw [slotOff_eq, List.find?_eq_none]
  simp only [starterReset, List.forall_mem_cons, List.not_mem_nil, false_imp_iff, implies_true, and_true, beq_iff_eq]
  omega

theorem indexedReset_memSlot (m v k : Nat) : indexedReset 0x481000 [m, v, k] = memSlotReset v k := rfl

/-- The entries reset to the table of R249. -/
theorem regReset_slotOff {m v k : Nat} (hm : m < 8) (hv : v < 2) (hk : k < 1024) :
    regReset (slotOff m v k) = BitVec.ofNat 64 (memSlotReset v k) := by
  rw [regReset, findReg_slotOff hm hv hk, starterReset_find?_slotOff]
  simp [memSlotDesc, indexedReset_memSlot]

theorem memSlotReset_lt (v k : Nat) : memSlotReset v k < 256 := by
  unfold memSlotReset
  split
  · decide
  · split <;> decide

/-- At reset no rewritten entry waits for its frame, so the register is the entry in force. -/
theorem slotEntry_reset {m v n : Nat} (hm : m < 8) (hv : v < 2) :
    State.reset.slotEntry m v n = memSlotReset v (n % 1024) := by
  have hreg : State.reset.reg (slotOff m v (n % 1024)) = BitVec.ofNat 64 (memSlotReset v (n % 1024)) :=
    regReset_slotOff hm hv (Nat.mod_lt _ (by decide))
  have hswap : (State.reset.dramOf m).swapAt = 0 := rfl
  have hlt := memSlotReset_lt v (n % 1024)
  calc State.reset.slotEntry m v n
    _ = State.reset.fld (slotOff m v (n % 1024)) 7 0 := by
      rw [State.slotEntry, hswap, if_neg (Nat.not_lt_zero n)]
    _ = memSlotReset v (n % 1024) := by
      simp only [State.fld, hreg, fld, bitsOf, BitVec.toNat_ofNat]
      omega

end Sys2Proof.Machine

open Sys2Proof Sys2Proof.Machine

/-- Settles O55: each entry is read from its MEM.SLOT register, whose reset value has the kind in its bits 7:6. -/
theorem slotTablesAfterReset : Obligations.SlotTablesAfterReset := by
  unfold Obligations.SlotTablesAfterReset
  rintro m v n k hm hv rfl
  rw [slotEntry_reset hm hv, memSlotReset]
  by_cases hfixed : n % 1024 % 16 = 15
  · rw [if_pos hfixed, if_pos hfixed]
  · rw [if_neg hfixed, if_neg hfixed, apply_ite (· / 64)]
    simp [and_assoc]

end
